-- ==== Sys2Proof/Word.lean ====
section
/-!
DEFINITION. The word types of the block (spec/10_state.md R22, spec/30_encoding.md R60): a request channel word, a bus byte.
-/

namespace Sys2Proof

/-- A 16-bit word: a request channel word, a coordinate operand, a colour, a `D16` payload. -/
abbrev Word := BitVec 16

/-- An 8-bit byte: a controller opcode, an argument byte, a bitmap byte, a font column. -/
abbrev Byte := BitVec 8

end Sys2Proof
end

