-- ==== Sys2Proof/Syntax.lean ====
section
/-!
DEFINITION. The 31 requests of the opcode map (spec/30_encoding.md R65, spec/opcode_table.json), one constructor a row.
Coordinates, lengths, radii and colours are the 16-bit operand words; what they stand for is read in the meanings (R62).
-/

namespace Sys2Proof

/-- A request of the opcode map (R65), SUB immediate first, then its operands in the order of the map. -/
inductive Instr where
  /-- NOP (0x00). -/
  | nop
  /-- INIT v (0x01). -/
  | init (v : BitVec 2)
  /-- RUN_TABLE t (0x02): legal for t in 0..4. -/
  | runTable (t : BitVec 3)
  /-- SET_ROTATION r (0x03). -/
  | setRotation (r : Byte)
  /-- GET_ROTATION (0x04). -/
  | getRotation
  /-- INVERT f (0x05). -/
  | invert (f : Bool)
  /-- GET_WIDTH (0x06). -/
  | getWidth
  /-- GET_HEIGHT (0x07). -/
  | getHeight
  /-- COLOR565 r, g, b (0x08). -/
  | color565 (r g b : Byte)
  /-- CLEAR_STATUS (0x09). -/
  | clearStatus
  /-- PIXEL x, y, c (0x10). -/
  | pixel (x y c : Word)
  /-- HLINE x, y, w, c (0x11). -/
  | hline (x y w c : Word)
  /-- VLINE x, y, h, c (0x12). -/
  | vline (x y h c : Word)
  /-- FILL_RECT x, y, w, h, c (0x13). -/
  | fillRect (x y w h c : Word)
  /-- RECT x, y, w, h, c (0x14). -/
  | rect (x y w h c : Word)
  /-- LINE x0, y0, x1, y1, c (0x15). -/
  | line (x0 y0 x1 y1 c : Word)
  /-- CIRCLE x0, y0, r, c (0x18). -/
  | circle (x0 y0 r c : Word)
  /-- CIRCLE_HELPER m, x0, y0, r, c (0x19). -/
  | circleHelper (m : BitVec 4) (x0 y0 r c : Word)
  /-- FILL_CIRCLE x0, y0, r, c (0x1A). -/
  | fillCircle (x0 y0 r c : Word)
  /-- FILL_CIRCLE_HELPER m, x0, y0, r, extra, c (0x1B). -/
  | fillCircleHelper (m : BitVec 2) (x0 y0 r extra c : Word)
  /-- ROUND_RECT x, y, w, h, r, c (0x1C). -/
  | roundRect (x y w h r c : Word)
  /-- FILL_ROUND_RECT x, y, w, h, r, c (0x1D). -/
  | fillRoundRect (x y w h r c : Word)
  /-- TRIANGLE x0, y0, x1, y1, x2, y2, c (0x20). -/
  | triangle (x0 y0 x1 y1 x2 y2 c : Word)
  /-- FILL_TRIANGLE x0, y0, x1, y1, x2, y2, c (0x21). -/
  | fillTriangle (x0 y0 x1 y1 x2 y2 c : Word)
  /-- BITMAP x, y, w, h, c, addr (0x22). -/
  | bitmap (x y w h c : Word) (addr : BitVec 32)
  /-- DRAW_CHAR G, x, y, fg, bg, scale, code (0x28). -/
  | drawChar (g : Bool) (x y fg bg : Word) (scale code : Byte)
  /-- WRITE_CHAR code (0x29). -/
  | writeChar (code : Byte)
  /-- SET_CURSOR x, y (0x2A). -/
  | setCursor (x y : Word)
  /-- SET_TEXT_COLOR fg, bg (0x2B). -/
  | setTextColor (fg bg : Word)
  /-- SET_TEXT_SCALE s (0x2C). -/
  | setTextScale (s : Byte)
  /-- SET_TEXT_WRAP f (0x2D). -/
  | setTextWrap (f : Bool)
  deriving DecidableEq, Repr

end Sys2Proof
end

