-- ==== Sys2Proof/WellFormed.lean ====
section
/-!
DEFINITION. Which terms of `Instr` an encoding stands for. Every operand value is legal (spec/30_encoding.md R68); the one
field value the encoding excludes is a table id of 5 to 7 (R67).
-/

namespace Sys2Proof

/-- RUN_TABLE's table id is in 0..4 (R67); every other field is legal at every value (R68). -/
def Instr.wf : Instr → Bool
  | .runTable t => decide (t.toNat < 5)
  | .nop | .init _ | .setRotation _ | .getRotation | .invert _ | .getWidth | .getHeight | .color565 _ _ _ | .clearStatus => true
  | .pixel _ _ _ | .hline _ _ _ _ | .vline _ _ _ _ | .fillRect _ _ _ _ _ | .rect _ _ _ _ _ | .line _ _ _ _ _ => true
  | .circle _ _ _ _ | .circleHelper _ _ _ _ _ | .fillCircle _ _ _ _ | .fillCircleHelper _ _ _ _ _ _ => true
  | .roundRect _ _ _ _ _ _ | .fillRoundRect _ _ _ _ _ _ => true
  | .triangle _ _ _ _ _ _ _ | .fillTriangle _ _ _ _ _ _ _ | .bitmap _ _ _ _ _ _ => true
  | .drawChar _ _ _ _ _ _ _ | .writeChar _ | .setCursor _ _ | .setTextColor _ _ | .setTextScale _ | .setTextWrap _ => true

/-- A well-formed request. -/
abbrev Instr.WellFormed (i : Instr) : Prop := i.wf = true

end Sys2Proof
end

