-- ==== Sys2Proof/Decode.lean ====
section
/-!
DEFINITION. The decoder (spec/30_encoding.md R60 to R67), total on any list of request channel words, rejecting by name; and
after it the encoder (R61, R62).
-/

namespace Sys2Proof

/-! ## Fields -/

/-- `OPC`, bits 15:8 of the head word (R61). -/
def opcOf (w0 : Word) : Byte := w0.extractLsb' 8 8

/-- `SUB`, bits 7:0 of the head word (R61). -/
def subOf (w0 : Word) : Byte := w0.extractLsb' 0 8

/-- The high byte of a word. -/
def hiByte (w : Word) : Byte := w.extractLsb' 8 8

/-- The low byte of a word. -/
def loByte (w : Word) : Byte := w.extractLsb' 0 8

/-- A word from its high and low bytes, `{hi, lo}` (R16). -/
def ofBytes (hi lo : Byte) : Word := hi ++ lo

/-- The 32-bit bitmap address from its two operand words, low word first (R62). -/
def ofAddrWords (alo ahi : Word) : BitVec 32 := ahi ++ alo

/-! ## The opcode table -/

/-- Why a head word is illegal (R66, R67). -/
inductive Reject where
  /-- `OPC` is not in the opcode map. -/
  | reservedOpcode
  /-- A reserved-zero `SUB` bit is 1. -/
  | reservedSub
  /-- RUN_TABLE with a table id of 5 to 7. -/
  | tableId
  deriving DecidableEq, Repr

/-- One row of the opcode map (R65). -/
structure Row where
  mnemonic : String
  /-- The value of the head word under the mask. -/
  pattern : Word
  /-- The head word bits that are fixed: `OPC` and the reserved-zero bits of `SUB`. -/
  mask : Word
  /-- `N`, the operand count. -/
  operands : Nat
  /-- The request of a head word and exactly `N` operand words. -/
  build : Word → List Word → Option Instr

/-- The control rows, 0x00 to 0x09. -/
def controlRows : List Row :=
  [ ⟨"NOP", 0x0000, 0xFFFF, 0, fun _ _ => some .nop⟩,
    ⟨"INIT", 0x0100, 0xFFFC, 0, fun w0 _ => some (.init (w0.extractLsb' 0 2))⟩,
    ⟨"RUN_TABLE", 0x0200, 0xFFF8, 0, fun w0 _ => some (.runTable (w0.extractLsb' 0 3))⟩,
    ⟨"SET_ROTATION", 0x0300, 0xFF00, 0, fun w0 _ => some (.setRotation (subOf w0))⟩,
    ⟨"GET_ROTATION", 0x0400, 0xFFFF, 0, fun _ _ => some .getRotation⟩,
    ⟨"INVERT", 0x0500, 0xFFFE, 0, fun w0 _ => some (.invert (w0.getLsbD 0))⟩,
    ⟨"GET_WIDTH", 0x0600, 0xFFFF, 0, fun _ _ => some .getWidth⟩,
    ⟨"GET_HEIGHT", 0x0700, 0xFFFF, 0, fun _ _ => some .getHeight⟩,
    ⟨"COLOR565", 0x0800, 0xFFFF, 2,
      fun _ ops => match ops with
        | [rg, b] => some (.color565 (hiByte rg) (loByte rg) (loByte b))
        | _ => none⟩,
    ⟨"CLEAR_STATUS", 0x0900, 0xFFFF, 0, fun _ _ => some .clearStatus⟩ ]

/-- The line and rectangle rows, 0x10 to 0x15. -/
def lineRows : List Row :=
  [ ⟨"PIXEL", 0x1000, 0xFFFF, 3,
      fun _ ops => match ops with
        | [x, y, c] => some (.pixel x y c)
        | _ => none⟩,
    ⟨"HLINE", 0x1100, 0xFFFF, 4,
      fun _ ops => match ops with
        | [x, y, w, c] => some (.hline x y w c)
        | _ => none⟩,
    ⟨"VLINE", 0x1200, 0xFFFF, 4,
      fun _ ops => match ops with
        | [x, y, h, c] => some (.vline x y h c)
        | _ => none⟩,
    ⟨"FILL_RECT", 0x1300, 0xFFFF, 5,
      fun _ ops => match ops with
        | [x, y, w, h, c] => some (.fillRect x y w h c)
        | _ => none⟩,
    ⟨"RECT", 0x1400, 0xFFFF, 5,
      fun _ ops => match ops with
        | [x, y, w, h, c] => some (.rect x y w h c)
        | _ => none⟩,
    ⟨"LINE", 0x1500, 0xFFFF, 5,
      fun _ ops => match ops with
        | [x0, y0, x1, y1, c] => some (.line x0 y0 x1 y1 c)
        | _ => none⟩ ]

/-- The circle rows, 0x18 to 0x1D. -/
def circleRows : List Row :=
  [ ⟨"CIRCLE", 0x1800, 0xFFFF, 4,
      fun _ ops => match ops with
        | [x0, y0, r, c] => some (.circle x0 y0 r c)
        | _ => none⟩,
    ⟨"CIRCLE_HELPER", 0x1900, 0xFFF0, 4,
      fun w0 ops => match ops with
        | [x0, y0, r, c] => some (.circleHelper (w0.extractLsb' 0 4) x0 y0 r c)
        | _ => none⟩,
    ⟨"FILL_CIRCLE", 0x1A00, 0xFFFF, 4,
      fun _ ops => match ops with
        | [x0, y0, r, c] => some (.fillCircle x0 y0 r c)
        | _ => none⟩,
    ⟨"FILL_CIRCLE_HELPER", 0x1B00, 0xFFFC, 5,
      fun w0 ops => match ops with
        | [x0, y0, r, extra, c] => some (.fillCircleHelper (w0.extractLsb' 0 2) x0 y0 r extra c)
        | _ => none⟩,
    ⟨"ROUND_RECT", 0x1C00, 0xFFFF, 6,
      fun _ ops => match ops with
        | [x, y, w, h, r, c] => some (.roundRect x y w h r c)
        | _ => none⟩,
    ⟨"FILL_ROUND_RECT", 0x1D00, 0xFFFF, 6,
      fun _ ops => match ops with
        | [x, y, w, h, r, c] => some (.fillRoundRect x y w h r c)
        | _ => none⟩ ]

/-- The triangle and bitmap rows, 0x20 to 0x22. -/
def triangleRows : List Row :=
  [ ⟨"TRIANGLE", 0x2000, 0xFFFF, 7,
      fun _ ops => match ops with
        | [x0, y0, x1, y1, x2, y2, c] => some (.triangle x0 y0 x1 y1 x2 y2 c)
        | _ => none⟩,
    ⟨"FILL_TRIANGLE", 0x2100, 0xFFFF, 7,
      fun _ ops => match ops with
        | [x0, y0, x1, y1, x2, y2, c] => some (.fillTriangle x0 y0 x1 y1 x2 y2 c)
        | _ => none⟩,
    ⟨"BITMAP", 0x2200, 0xFFFF, 7,
      fun _ ops => match ops with
        | [x, y, w, h, c, alo, ahi] => some (.bitmap x y w h c (ofAddrWords alo ahi))
        | _ => none⟩ ]

/-- The text rows, 0x28 to 0x2D. -/
def textRows : List Row :=
  [ ⟨"DRAW_CHAR", 0x2800, 0xFFFE, 5,
      fun w0 ops => match ops with
        | [x, y, fg, bg, sc] => some (.drawChar (w0.getLsbD 0) x y fg bg (hiByte sc) (loByte sc))
        | _ => none⟩,
    ⟨"WRITE_CHAR", 0x2900, 0xFF00, 0, fun w0 _ => some (.writeChar (subOf w0))⟩,
    ⟨"SET_CURSOR", 0x2A00, 0xFFFF, 2,
      fun _ ops => match ops with
        | [x, y] => some (.setCursor x y)
        | _ => none⟩,
    ⟨"SET_TEXT_COLOR", 0x2B00, 0xFFFF, 2,
      fun _ ops => match ops with
        | [fg, bg] => some (.setTextColor fg bg)
        | _ => none⟩,
    ⟨"SET_TEXT_SCALE", 0x2C00, 0xFF00, 0, fun w0 _ => some (.setTextScale (subOf w0))⟩,
    ⟨"SET_TEXT_WRAP", 0x2D00, 0xFFFE, 0, fun w0 _ => some (.setTextWrap (w0.getLsbD 0))⟩ ]

/-- The opcode map (R65), in the order of the spec's table. -/
def rows : List Row := controlRows ++ lineRows ++ circleRows ++ triangleRows ++ textRows

/-- The head word matches the row: its `OPC`, and every reserved-zero bit of `SUB` is 0. -/
def Row.matchesHead (r : Row) (w0 : Word) : Bool := w0 &&& r.mask == r.pattern

/-- The row of a head word, if there is one. -/
def rowOf (w0 : Word) : Option Row := rows.find? (·.matchesHead w0)

/-- `OPC` is in the opcode map (R65). -/
def opcListed (w0 : Word) : Bool := rows.any (fun r => opcOf r.pattern == opcOf w0)

/-- RUN_TABLE with a table id of 5 to 7 (R67). -/
def badTableId (w0 : Word) : Bool := opcOf w0 == 0x02 && decide (5 ≤ (w0.extractLsb' 0 3).toNat)

/-- Head word decoding (R66 step 1): the row, or why the request is illegal. -/
def decodeHead (w0 : Word) : Except Reject Row :=
  match rowOf w0 with
  | none => .error (if opcListed w0 then .reservedSub else .reservedOpcode)
  | some r => if badTableId w0 then .error .tableId else .ok r

/-! ## The decoder -/

/-- What the words waiting on the request channel are. -/
inductive Decoded where
  /-- No word waits. -/
  | idle
  /-- A legal head word waits, but not all of its operand words. -/
  | needOperands
  /-- An illegal head word waits; `rest` is the words after it (R66 step 1 consumes the head word only). -/
  | illegal (why : Reject) (rest : List Word)
  /-- A whole request waits; `rest` is the words after it (R66 step 2). -/
  | ok (i : Instr) (rest : List Word)
  deriving DecidableEq, Repr

/-- The decoder (R60, R66): the first request of the words waiting on the request channel. -/
def decode : List Word → Decoded
  | [] => .idle
  | w0 :: ws =>
    match decodeHead w0 with
    | .error why => .illegal why ws
    | .ok r =>
      if ws.length < r.operands then .needOperands
      else
        match r.build w0 (ws.take r.operands) with
        | some i => .ok i (ws.drop r.operands)
        | none => .illegal .reservedOpcode ws

/-! ## The encoder -/

/-- A head word from its `OPC` and `SUB` fields (R61). -/
def headWord (opc sub : Byte) : Word := ofBytes opc sub

/-- The words of a request (R61, R62, R65): the head word, then the operand words in order. Ignored bits are sent 0. -/
def encode : Instr → List Word
  | .nop => [headWord 0x00 0]
  | .init v => [headWord 0x01 (v.setWidth 8)]
  | .runTable t => [headWord 0x02 (t.setWidth 8)]
  | .setRotation r => [headWord 0x03 r]
  | .getRotation => [headWord 0x04 0]
  | .invert f => [headWord 0x05 ((BitVec.ofBool f).setWidth 8)]
  | .getWidth => [headWord 0x06 0]
  | .getHeight => [headWord 0x07 0]
  | .color565 r g b => [headWord 0x08 0, ofBytes r g, ofBytes 0 b]
  | .clearStatus => [headWord 0x09 0]
  | .pixel x y c => [headWord 0x10 0, x, y, c]
  | .hline x y w c => [headWord 0x11 0, x, y, w, c]
  | .vline x y h c => [headWord 0x12 0, x, y, h, c]
  | .fillRect x y w h c => [headWord 0x13 0, x, y, w, h, c]
  | .rect x y w h c => [headWord 0x14 0, x, y, w, h, c]
  | .line x0 y0 x1 y1 c => [headWord 0x15 0, x0, y0, x1, y1, c]
  | .circle x0 y0 r c => [headWord 0x18 0, x0, y0, r, c]
  | .circleHelper m x0 y0 r c => [headWord 0x19 (m.setWidth 8), x0, y0, r, c]
  | .fillCircle x0 y0 r c => [headWord 0x1A 0, x0, y0, r, c]
  | .fillCircleHelper m x0 y0 r extra c => [headWord 0x1B (m.setWidth 8), x0, y0, r, extra, c]
  | .roundRect x y w h r c => [headWord 0x1C 0, x, y, w, h, r, c]
  | .fillRoundRect x y w h r c => [headWord 0x1D 0, x, y, w, h, r, c]
  | .triangle x0 y0 x1 y1 x2 y2 c => [headWord 0x20 0, x0, y0, x1, y1, x2, y2, c]
  | .fillTriangle x0 y0 x1 y1 x2 y2 c => [headWord 0x21 0, x0, y0, x1, y1, x2, y2, c]
  | .bitmap x y w h c addr => [headWord 0x22 0, x, y, w, h, c, addr.extractLsb' 0 16, addr.extractLsb' 16 16]
  | .drawChar g x y fg bg scale code => [headWord 0x28 ((BitVec.ofBool g).setWidth 8), x, y, fg, bg, ofBytes scale code]
  | .writeChar code => [headWord 0x29 code]
  | .setCursor x y => [headWord 0x2A 0, x, y]
  | .setTextColor fg bg => [headWord 0x2B 0, fg, bg]
  | .setTextScale s => [headWord 0x2C s]
  | .setTextWrap f => [headWord 0x2D ((BitVec.ofBool f).setWidth 8)]

/-! ## Words laid out from a table word -/

/-- The first `n` 16-bit words of a number whose bit 0 is the least significant bit of the first word. -/
def wordsOfNat : Nat → Nat → List Word
  | 0, _ => []
  | n + 1, w => BitVec.ofNat 16 w :: wordsOfNat n (w / 65536)

/-- The words of the longest request, 8 of them (R60), from a table word of `nbits` bits, the bits above `nbits` zero. -/
def tableWords (nbits w : Nat) : List Word := wordsOfNat 8 (w % 2 ^ nbits)

/-- How many words the request of a head word takes: `1 + N`, and 1 for an illegal head word (R60, R66). -/
def requestLength (w0 : Word) : Nat :=
  match decodeHead w0 with
  | .ok r => 1 + r.operands
  | .error _ => 1

/-- Exactly the words of the request that a table word stands for. -/
def tableRequest (nbits w : Nat) : List Word :=
  (tableWords nbits w).take (requestLength ((tableWords nbits w).headD 0))

/-- The request the decoder reads from a table word, `none` where it refuses. -/
def decodeTableWord (nbits w : Nat) : Option Instr :=
  match decode (tableWords nbits w) with
  | .ok i _ => some i
  | .illegal _ _ | .needOperands | .idle => none

end Sys2Proof
end

