-- ==== Sys2Proof/Config.lean ====
section
/-!
DEFINITION. The implementation parameters of spec/00_scope.md R6 to R15, as one plain record that State holds and no step
changes, with the spec's defaults; and the opaque constants of the points the spec leaves OPEN.
-/

namespace Sys2Proof

/-- `SWAP_SCOPE` (R10): which operations apply the R/B swap. -/
inductive SwapScope where
  /-- Only HLINE and VLINE, and what draws through them (the default). -/
  | hvOnly
  /-- Every pixel word the block streams. -/
  | all
  deriving DecidableEq, Repr, Inhabited

/-- One step of an init table (R12, R87): opcode, argument bytes, optional delay. -/
structure CmdStep where
  opcode : Byte
  args : List Byte
  delay : Option Word
  deriving DecidableEq, Repr, Inhabited

/-- `VARIANT_CFG(v)` (R11). -/
structure VariantCfg where
  /-- The init tables INIT replays, in order. -/
  tables : List (Fin 5)
  colOffset : Byte
  rowOffset : Byte
  colorSwap : Bool
  /-- The access-control value INIT sends last, if any. -/
  postMadctl : Option Byte
  deriving DecidableEq, Repr, Inhabited

/-- The five columns of a glyph, left to right, bit 0 the top pixel (R13). -/
abbrev Glyph := Vector Byte 5

/-- The parameters of R6 to R15. -/
structure Config where
  /-- `PANEL_W` (R6). -/
  panelW : Nat
  /-- `PANEL_H` (R6). -/
  panelH : Nat
  /-- `OP_CASET` (R7). -/
  opCaset : Byte
  /-- `OP_RASET` (R7). -/
  opRaset : Byte
  /-- `OP_RAMWR` (R7). -/
  opRamwr : Byte
  /-- `OP_MADCTL` (R7). -/
  opMadctl : Byte
  /-- `OP_INVOFF` (R7). -/
  opInvoff : Byte
  /-- `OP_INVON` (R7). -/
  opInvon : Byte
  /-- `ROT_MADCTL(v, r)` (R8): outer index the variant, inner index the rotation. -/
  rotMadctl : Vector (Vector Byte 4) 4
  /-- `GLYPH_TOGGLE` (R9). -/
  glyphToggle : Byte
  /-- `SWAP_SCOPE` (R10). -/
  swapScope : SwapScope
  /-- `VARIANT_CFG(v)` (R11). -/
  variantCfg : Vector VariantCfg 4
  /-- `INIT_TABLES(t)` (R12). -/
  initTables : Vector (List CmdStep) 5
  /-- `FONT(code)` (R13). -/
  font : Vector Glyph 256
  /-- `DRAIN_TIMEOUT` (R14). -/
  drainTimeout : Option Nat
  /-- `BMP_AW` (R15). -/
  bmpAw : Nat
  deriving DecidableEq, Repr, Inhabited

/-- The OPEN contents of the init tables (R12, U16): the spec gives the structure and no content, so nothing constrains
this constant. Assumption 2. -/
opaque Config.openInitTables : Vector (List CmdStep) 5

/-- The OPEN contents of the font (R13, U17): nothing constrains this constant. Assumption 2. -/
opaque Config.openFont : Vector Glyph 256

/-- FREE VALUE (R50, U4): whether the `n`-th racing read of a bitmap byte returns the new byte. Nothing constrains it.
Assumption 11. -/
opaque Config.raceTakesNew : Nat → Bool

/-- FREE VALUE (R23, U14): whether the host's `n`-th read of the response that falls on a commit returns the new response.
Nothing constrains it. Assumption 35. -/
opaque Config.respTakesNew : Nat → Bool

/-- FREE VALUE (R46, R47, U6, U8): where the `n`-th pixel word lands whose place the spec leaves unspecified, `none` if on no
logical pixel. Nothing constrains it. Assumption 30. -/
opaque Config.strayPlace : Nat → Option (Int × Int)

/-- The spec's defaults (R6 to R15). -/
def Config.default : Config where
  panelW := 128
  panelH := 160
  opCaset := 0x2A
  opRaset := 0x2B
  opRamwr := 0x2C
  opMadctl := 0x36
  opInvoff := 0x20
  opInvon := 0x21
  rotMadctl :=
    #v[#v[0xC0, 0xA0, 0x00, 0x60], #v[0xC0, 0xA0, 0x00, 0x60], #v[0xC0, 0xA0, 0x00, 0x60], #v[0xC0, 0xA0, 0x00, 0x60]]
  glyphToggle := 0x20
  swapScope := .hvOnly
  variantCfg :=
    #v[⟨[0], 0, 0, false, none⟩, ⟨[1, 2, 4], 2, 1, false, none⟩,
       ⟨[1, 3, 4], 0, 0, false, none⟩, ⟨[1, 3, 4], 0, 0, true, some 0xC0⟩]
  initTables := Config.openInitTables
  font := Config.openFont
  drainTimeout := none
  bmpAw := 32

/-- The panel-size constraint of R6. -/
abbrev Config.PanelOk (c : Config) : Prop :=
  1 ≤ c.panelW ∧ c.panelW ≤ 32767 ∧ 1 ≤ c.panelH ∧ c.panelH ≤ 32767

/-- The constraint of R8: rotations 1 and 3 of every variant send different values. -/
abbrev Config.RotOk (c : Config) : Prop :=
  ∀ v : Fin 4, (c.rotMadctl.get v).get 1 ≠ (c.rotMadctl.get v).get 3

/-- The constraint of R9: exactly one bit of `GLYPH_TOGGLE` is set. -/
abbrev Config.ToggleOk (c : Config) : Prop :=
  ∃ k : Fin 8, c.glyphToggle = BitVec.ofNat 8 (2 ^ k.val)

/-- The constraint of R11: every window coordinate the block sends fits a 16-bit word. -/
abbrev Config.OffsetsOk (c : Config) : Prop :=
  ∀ v : Fin 4, max c.panelW c.panelH
    + max (c.variantCfg.get v).colOffset.toNat (c.variantCfg.get v).rowOffset.toNat ≤ 65536

/-- The constraint of R14: a timeout is a positive number. -/
abbrev Config.TimeoutOk (c : Config) : Prop := c.drainTimeout ≠ some 0

/-- A parameter set that meets the constraints the spec states. The step does not check it. Assumption 1. -/
abbrev Config.Wf (c : Config) : Prop :=
  c.PanelOk ∧ c.RotOk ∧ c.ToggleOk ∧ c.OffsetsOk ∧ c.TimeoutOk

end Sys2Proof
end

