-- ==== Sys2Proof/Machine/State.lean ====
section
/-!
DEFINITION. The state of the block (spec/10_state.md), as plain data; the bus event alphabet (spec/30_encoding.md R70); the
reasons a step can stop; the state after reset (spec/70_reset_and_hazards.md R250).
-/

namespace Sys2Proof.Machine

/-- A bus event (R70). -/
inductive BusEvent where
  /-- `SEL`: acquire the bus, assert device select. -/
  | sel
  /-- `DESEL`: release the bus. -/
  | desel
  /-- `CMD(b)`: one opcode byte, command/data line at "command". -/
  | cmd (b : Byte)
  /-- `D8(b)`: one argument byte. -/
  | d8 (b : Byte)
  /-- `D16(w)`: one 16-bit data word. -/
  | d16 (w : Word)
  /-- `DRAIN`: hold until the transport answers. -/
  | drain
  /-- `SLEEP(ms)`: hold until the transport answers. -/
  | sleep (ms : Word)
  deriving DecidableEq, Repr, Inhabited

/-- What the transport does with an event that holds the block (R71, R223). `silent` is "does not complete": for a DRAIN
under `DRAIN_TIMEOUT = some n` the block then sees a timeout, otherwise it is held for ever. Assumption 4. -/
inductive Answer where
  | done
  | silent
  deriving DecidableEq, Repr, Inhabited

/-- An event that holds the block and is never answered (R223). -/
inductive Hold where
  | drain
  | sleep
  deriving DecidableEq, Repr, Inhabited

/-- A window, inclusive on both ends (R18); the window working registers `wx0`, `wy0`, `wx1`, `wy1` (R26). -/
structure Window where
  x0 : Int
  y0 : Int
  x1 : Int
  y1 : Int
  deriving DecidableEq, Repr, Inhabited

/-- The DisplayState registers (R22). -/
structure DisplayState where
  rotation : BitVec 2
  width : Word
  height : Word
  variant : BitVec 2
  colOffset : Byte
  rowOffset : Byte
  colorSwap : Bool
  madctl : Byte
  /-- Read as two's complement. -/
  cursorX : Word
  /-- Read as two's complement. -/
  cursorY : Word
  textColor : Word
  textBg : Word
  textScale : Byte
  wrap : Bool
  deriving DecidableEq, Repr, Inhabited

/-- The state of the block and of what its interfaces hold at a step boundary. -/
structure State where
  /-- The DisplayState registers (R22). -/
  ds : DisplayState
  /-- `S.status` (R23): bit 0 BUSY, bit 1 ILLEGAL, bit 2 TFAULT; bits 15:3 are hardwired 0. -/
  status : Word
  /-- `S.resp` (R23). -/
  resp : Word
  /-- Bus ownership (R25). -/
  owned : Bool
  /-- The pending madctl (R28). -/
  pendMad : Option Byte
  /-- The window working registers (R26), while a window burst is in progress. Assumption 14. -/
  window : Option Window
  /-- The event the block is held at for ever, if it is (R223). Assumption 5. -/
  held : Option Hold
  /-- The words of an accepted request whose operand words have not all arrived (R66). Assumption 7. -/
  latched : List Word
  /-- The request channel: the words the host has issued, oldest first (R40). -/
  chan : List Word
  /-- The bitmap source space (R41): cells that differ from what an unlisted address reads as. -/
  bitmap : List Host.Cell
  /-- The bytes another agent changes while the next BITMAP request runs (R50, R261). Assumption 11. -/
  bitmapRace : List Host.Cell
  /-- How many bytes BITMAP requests have read; it numbers the reads for the free value. Assumption 11. -/
  raceReads : Nat
  /-- The transport's answers to the coming DRAINs and SLEEPs, in order; `done` when it runs out. Assumption 3. -/
  transport : List Answer
  /-- The output trace: the bus events emitted, oldest first (R17). Assumption 9. -/
  trace : List BusEvent
  /-- The parameters, the font and the init table store (R6 to R15, R42, R43); no step changes them. Assumption 1. -/
  cfg : Config
  deriving DecidableEq, Repr, Inhabited

/-- Why no step is enabled: the block is stuck (R223, U3). Both are raised by `step` alone, and both are safe: the model
stops where the hardware holds. -/
inductive Fault where
  /-- The block is held at a DRAIN the transport never answers, under `DRAIN_TIMEOUT = none`. Raised by `step` in a state
  held there. Safe. -/
  | heldAtDrain
  /-- The block is held at a SLEEP the transport never answers. Raised by `step` in a state held there. Safe. -/
  | heldAtSleep
  deriving DecidableEq, Repr

/-- Why an instruction has no meaning. -/
inductive Refusal where
  /-- The instruction has no meaning yet. Raised by an arm of `exec` that is rejected by name; none is. Safe. -/
  | notModelled (mnemonic : String)
  deriving DecidableEq, Repr

/-- The DisplayState registers after reset (R250). -/
def DisplayState.reset (cfg : Config) : DisplayState where
  rotation := 0
  width := BitVec.ofNat 16 cfg.panelW
  height := BitVec.ofNat 16 cfg.panelH
  variant := 0
  colOffset := 0
  rowOffset := 0
  colorSwap := false
  madctl := 0x00
  cursorX := 0
  cursorY := 0
  textColor := 0xFFFF
  textBg := 0xFFFF
  textScale := 1
  wrap := true

/-- The block with parameters `cfg` right after reset (R250): idle at a request boundary, nothing emitted. -/
def State.resetWith (cfg : Config) : State where
  ds := DisplayState.reset cfg
  status := 0x0000
  resp := 0x0000
  owned := false
  pendMad := none
  window := none
  held := none
  latched := []
  chan := []
  bitmap := []
  bitmapRace := []
  raceReads := 0
  transport := []
  trace := []
  cfg := cfg

/-- The block right after reset, with the spec's default parameters (R250, R6 to R15). -/
def State.reset : State := State.resetWith Config.default

end Sys2Proof.Machine
end

