-- ==== Sys2Proof/Machine/Flags.lean ====
section
/-!
DEFINITION. The status register (spec/10_state.md R23, R24): its bits, and the only operations that write them.
-/

namespace Sys2Proof.Machine

/-- `BUSY`, bit 0 (R23). -/
def busyMask : Word := 0x0001

/-- `ILLEGAL`, bit 1 (R23). -/
def illegalMask : Word := 0x0002

/-- `TFAULT`, bit 2 (R23). -/
def tfaultMask : Word := 0x0004

/-- The bits that are not hardwired 0 (R23). -/
def statusMask : Word := 0x0007

/-- What the host reads from `S.status`: bits 15:3 are hardwired 0 (R23). -/
def State.statusWord (s : State) : Word := s.status &&& statusMask

/-- `BUSY` as a flag. -/
def State.busy (s : State) : Bool := s.status.getLsbD 0

/-- `ILLEGAL` as a flag. -/
def State.illegal (s : State) : Bool := s.status.getLsbD 1

/-- `TFAULT` as a flag. -/
def State.tfault (s : State) : Bool := s.status.getLsbD 2

/-- A status word with the bits of `m` set; the reserved bits stay 0 (R23). -/
def setBits (m v : Word) : Word := (v ||| m) &&& statusMask

/-- A status word with the bits of `m` cleared; the reserved bits stay 0 (R23). -/
def clearBits (m v : Word) : Word := v &&& ~~~m &&& statusMask

/-- `BUSY <- 1` (R66). -/
def State.setBusy (s : State) : State := { s with status := setBits busyMask s.status }

/-- `BUSY <- 0` (R66). -/
def State.clearBusy (s : State) : State := { s with status := clearBits busyMask s.status }

/-- `ILLEGAL <- 1` (R221). -/
def State.setIllegal (s : State) : State := { s with status := setBits illegalMask s.status }

/-- `TFAULT <- 1` (R222). -/
def State.setTfault (s : State) : State := { s with status := setBits tfaultMask s.status }

/-- `ILLEGAL <- 0; TFAULT <- 0` (R207). -/
def State.clearSticky (s : State) : State := { s with status := clearBits (illegalMask ||| tfaultMask) s.status }

end Sys2Proof.Machine
end

