-- ==== Sys2Proof/Machine/Operands.lean ====
section
/-!
DEFINITION. What the operand forms stand for (spec/30_encoding.md R62), the arithmetic primitives (spec/00_scope.md R5,
R16), and the reads of the parameters.
-/

namespace Sys2Proof.Machine

/-- `s16(w)`: the word as two's complement (R16). -/
def s16 (w : Word) : Int := w.toInt

/-- `u16(v)`: `v mod 2^16` (R16). -/
def u16 (v : Int) : Word := BitVec.ofInt 16 v

/-- `tdiv(a, b)`: division that rounds toward zero (R5). -/
def tdiv (a b : Int) : Int := a.tdiv b

/-- The number of integers in `a..b`, zero when `a > b` (R16). -/
def spanLen (a b : Int) : Nat := (b - a + 1).toNat

/-- The integers `a..b` in order (R16, `for i in a..b`). -/
def intRange (a b : Int) : List Int := (List.range (spanLen a b)).map (fun (k : Nat) => a + (k : Int))

/-- A scale operand: 0 stands for 1 (R180, R188). -/
def scaleOf (s : Byte) : Byte := if s = 0 then 1 else s

/-- A rotation operand, used modulo 4 (R62, R200). -/
def rotationOperand (r : Byte) : BitVec 2 := r.setWidth 2

/-- `DelayMs(d)`: the sentinel 255 means 500 ms (R81). -/
def delayMs (d : Word) : Word := if d = 255 then 500 else d

/-- `swap565(c) = {c[4:0], c[10:5], c[15:11]}` (R106). -/
def swap565 (c : Word) : Word := c.extractLsb' 0 5 ++ c.extractLsb' 5 6 ++ c.extractLsb' 11 5

/-- `{r[7:3], g[7:2], b[7:3]}` (R205). -/
def pack565 (r g b : Byte) : Word := r.extractLsb' 3 5 ++ g.extractLsb' 2 6 ++ b.extractLsb' 3 5

/-- `ROT_MADCTL(v, r)` (R8). -/
def rotMadctl (cfg : Config) (v r : BitVec 2) : Byte := (cfg.rotMadctl.get ⟨v.toNat, v.isLt⟩).get ⟨r.toNat, r.isLt⟩

/-- `VARIANT_CFG(v)` (R11). -/
def variantCfg (cfg : Config) (v : BitVec 2) : VariantCfg := cfg.variantCfg.get ⟨v.toNat, v.isLt⟩

/-- `TableRead(t)` (R17, R43). -/
def tableRead (cfg : Config) (t : Fin 5) : List CmdStep := cfg.initTables.get t

/-- `FontRead(code)` (R17, R42): the five columns, left to right. -/
def fontRead (cfg : Config) (code : Byte) : List Byte := (cfg.font.get ⟨code.toNat, code.isLt⟩).toList

/-- The width of the logical screen as an integer. -/
def screenW (s : State) : Int := (s.ds.width.toNat : Int)

/-- The height of the logical screen as an integer. -/
def screenH (s : State) : Int := (s.ds.height.toNat : Int)

/-- A pixel is on-screen (R18). -/
def onScreen (s : State) (x y : Int) : Bool :=
  decide (0 ≤ x) && decide (x < screenW s) && decide (0 ≤ y) && decide (y < screenH s)

/-- The logical width of a rotation (R29, R200): the panel's height for odd rotations. -/
def logicalWidth (cfg : Config) (r : BitVec 2) : Word :=
  BitVec.ofNat 16 (if r.getLsbD 0 then cfg.panelH else cfg.panelW)

/-- The logical height of a rotation (R29, R200): the panel's width for odd rotations. -/
def logicalHeight (cfg : Config) (r : BitVec 2) : Word :=
  BitVec.ofNat 16 (if r.getLsbD 0 then cfg.panelW else cfg.panelH)

/-- The flag `hv` of `COLW` (R107): whether the pixel word is streamed inside HLINE or VLINE. -/
inductive Stream where
  | hv
  | plain
  deriving DecidableEq, Repr

/-- Whether a pixel word is swapped before it is streamed (R107). -/
def swaps (s : State) (st : Stream) : Bool :=
  s.ds.colorSwap && (decide (s.cfg.swapScope = .all) || decide (st = .hv))

/-- `COLW(c, hv)` (R107). -/
def colw (s : State) (c : Word) (st : Stream) : Word := if swaps s st then swap565 c else c

end Sys2Proof.Machine
end

