-- ==== Sys2Proof/Machine/Ops.lean ====
section
/-!
DEFINITION. The shared operations: the bitmap memory (spec/20_memory.md R41), emitting bus events and awaiting their answers
(spec/00_scope.md R17, spec/30_encoding.md R71), one bus critical section, the two exceptions and the end of a request
(spec/60_exceptions.md R221 to R226).
-/

namespace Sys2Proof.Machine

/-! ## The bitmap memory -/

/-- What an address that is not listed reads as. DESIGN CHOICE, assumption 10. -/
def Memory.unlisted : Byte := 0x00

/-- The byte at an address. -/
def Memory.read : List Host.Cell → Nat → Byte
  | [], _ => Memory.unlisted
  | (k, v) :: m, a => if a = k then v else Memory.read m a

/-- A cell before the cells of a memory, unless it holds what an unlisted address reads as. -/
def Memory.cons (a : Nat) (b : Byte) (m : List Host.Cell) : List Host.Cell := if b = Memory.unlisted then m else (a, b) :: m

/-- The memory with byte `b` at address `a`, in canonical form. -/
def Memory.write (a : Nat) (b : Byte) : List Host.Cell → List Host.Cell
  | [] => Memory.cons a b []
  | (k, v) :: m =>
    if a < k then Memory.cons a b ((k, v) :: m)
    else if a = k then Memory.cons a b m
    else (k, v) :: Memory.write a b m

/-- Every address of the memory lies above `a`. -/
def Memory.above (a : Nat) (m : List Host.Cell) : Bool := m.all (fun c => decide (a < c.1))

/-- The canonical form: addresses strictly rising, no cell equal to what an unlisted address reads as. -/
def Memory.wf : List Host.Cell → Bool
  | [] => true
  | (k, v) :: m => decide (v ≠ Memory.unlisted) && Memory.above k m && Memory.wf m

/-- A bitmap address is reduced modulo `2^BMP_AW` (R15, R41). -/
def bitmapAddr (s : State) (a : Nat) : Nat := a % 2 ^ s.cfg.bmpAw

/-- `MemRead(a, 1)`: the byte at address `a mod 2^BMP_AW` (R41). -/
def memRead (s : State) (a : Nat) : Byte := Memory.read s.bitmap (bitmapAddr s a)

/-- The new value of a byte that another agent is changing, if it is changing it (R50). -/
def raceByte (s : State) (a : Nat) : Option Byte :=
  (s.bitmapRace.find? (fun c => bitmapAddr s c.1 == bitmapAddr s a)).map (·.2)

/-- The `n`-th byte read of a BITMAP request: `MemRead`, or, for a byte another agent is changing, the old or the new byte,
whichever the free value says (R50, U4). Assumption 11. -/
def memReadRacing (s : State) (n a : Nat) : Byte :=
  match raceByte s a with
  | none => memRead s a
  | some b => if Config.raceTakesNew (s.raceReads + n) then b else memRead s a

/-- The other agent's changes have all landed; `n` byte reads have been made (R50). The first change listed of an address
is the one that stands, as `raceByte` reads it. Assumption 11. -/
def settleRace (n : Nat) (s : State) : State :=
  { s with
    bitmap := s.bitmapRace.foldr (fun c m => Memory.write (bitmapAddr s c.1) c.2 m) s.bitmap
    bitmapRace := []
    raceReads := s.raceReads + n }

/-! ## Bus events -/

/-- `emit(ev)` (R17): append an event to the trace. -/
def emit (ev : BusEvent) (s : State) : State := { s with trace := s.trace ++ [ev] }

/-- `emit` of a list of events, in order. -/
def emitAll (evs : List BusEvent) (s : State) : State := { s with trace := s.trace ++ evs }

/-- `emit(SEL)`: the block owns the bus (R25). -/
def emitSel (s : State) : State := { emit .sel s with owned := true }

/-- `emit(DESEL)`: the block does not own the bus (R25). -/
def emitDesel (s : State) : State := { emit .desel s with owned := false }

/-- The transport's next answer; `done` when the list has run out (R265). Assumption 3. -/
def State.nextAnswer (s : State) : Answer := s.transport.headD .done

/-- The transport's next answer has been taken. -/
def State.dropAnswer (s : State) : State := { s with transport := s.transport.tail }

/-- How far a request has come: it goes on, or it is over (a TransportFault ended it, or it is held for ever). -/
inductive Progress where
  | running (s : State)
  | over (s : State)
  deriving DecidableEq, Repr

/-- The request goes on with `f` unless it is over. -/
def Progress.andThen : Progress → (State → Progress) → Progress
  | .running s, f => f s
  | .over s, _ => .over s

/-- The state a request has come to. -/
def Progress.state : Progress → State
  | .running s => s
  | .over s => s

/-! ## Exceptions and the end of a request -/

/-- What every request's end does: the hidden state is discarded (R226) and `BUSY` is cleared (R66). -/
def endRequest (s : State) : State := { s.clearBusy with pendMad := none, window := none }

/-- IllegalRequest (R221): set `ILLEGAL`, end the request; nothing else. -/
def takeIllegalRequest (s : State) : State := endRequest s.setIllegal

/-- TransportFault (R222): emit `DESEL`, abandon the rest, set `TFAULT`, commit nothing, end the request. -/
def takeTransportFault (s : State) : State := endRequest (emitDesel s).setTfault

/-- The block is held for ever with `BUSY = 1` (R223). Assumption 5. -/
def holdForever (h : Hold) (s : State) : State := { s.setBusy with held := some h }

/-- `emit(DRAIN); await(DRAIN)` (R55, R71, R222, R223). -/
def awaitDrain (s : State) : Progress :=
  match s.nextAnswer with
  | .done => .running (emit .drain s).dropAnswer
  | .silent =>
    match s.cfg.drainTimeout with
    | some _ => .over (takeTransportFault (emit .drain s).dropAnswer)
    | none => .over (holdForever .drain (emit .drain s).dropAnswer)

/-- `emit(SLEEP(ms)); await(SLEEP)` (R71, R223): no timeout exists for SLEEP. -/
def awaitSleep (ms : Word) (s : State) : Progress :=
  match s.nextAnswer with
  | .done => .running (emit (.sleep ms) s).dropAnswer
  | .silent => .over (holdForever .sleep (emit (.sleep ms) s).dropAnswer)

/-! ## Bus critical sections -/

/-- One bus critical section (R72): `SEL body [SLEEP] DRAIN DESEL`. -/
structure Critical where
  /-- The window it sets, if it is a window burst (R26). -/
  window : Option Window
  /-- The events between `SEL` and the sleep or drain: commands and data only. -/
  body : List BusEvent
  /-- The settle time of a command step, in milliseconds (R80). -/
  settle : Option Word
  /-- The access-control value to record in `pendMad` at the end (R84). -/
  snoop : Option Byte
  deriving DecidableEq, Repr

/-- The settle time of a command step, if it has one. -/
def awaitSettle : Option Word → State → Progress
  | none, s => .running s
  | some ms, s => awaitSleep ms s

/-- `SEL` and the body: the block owns the bus and holds the section's window (R25, R26). -/
def openCritical (c : Critical) (s : State) : State := { emitAll c.body (emitSel s) with window := c.window }

/-- `DESEL` and the madctl snoop (R80, R84). -/
def closeCritical (c : Critical) (s : State) : State :=
  { emitDesel s with window := none, pendMad := c.snoop <|> s.pendMad }

/-- One bus critical section (R80, R100, R182). -/
def runCritical (c : Critical) (s : State) : Progress :=
  (awaitSettle c.settle (openCritical c s)).andThen fun s1 =>
  (awaitDrain s1).andThen fun s2 =>
  .running (closeCritical c s2)

/-- Bus critical sections one after another (R54, R109); the first that is over ends the request (R224). -/
def runAll : List Critical → State → Progress
  | [], s => .running s
  | c :: cs, s => (runCritical c s).andThen (runAll cs)

/-- The events of a critical section whose awaits are all answered `done`. -/
def Critical.events (c : Critical) : List BusEvent :=
  .sel :: c.body ++ (c.settle.map BusEvent.sleep).toList ++ [.drain, .desel]

/-- The events of a list of critical sections whose awaits are all answered `done`. -/
def eventsOf (cs : List Critical) : List BusEvent := cs.flatMap Critical.events

/-- How many answers a critical section takes. -/
def Critical.awaits (c : Critical) : Nat := (if c.settle.isSome then 1 else 0) + 1

/-! ## A request -/

/-- A request (R66, R226): its critical sections, then its commit, then its end. `pendMad` is none at its start (R28). The
commit takes effect only if no section ended the request. -/
def perform (cs : List Critical) (commit : State → State) (s : State) : State :=
  match runAll cs { s with pendMad := none } with
  | .running t => endRequest (commit t)
  | .over t => t

/-- A request that writes no register (the drawing requests, INVERT). -/
def performBus (cs : List Critical) (s : State) : State := perform cs id s

/-- A request that emits no bus event. -/
def performRegs (commit : State → State) (s : State) : State := perform [] commit s

/-- `respond(w)`: the commit of a query (R63). -/
def respond (w : Word) (s : State) : State := { s with resp := w }

end Sys2Proof.Machine
end

