-- ==== Sys2Proof/Machine/Accept.lean ====
section
/-!
DEFINITION. Acceptance of a request from the request channel (spec/30_encoding.md R66): the words waiting, taking them, and
placing a request's words on the channel.
-/

namespace Sys2Proof.Machine

/-- The words of the request in progress and those behind it: what an accepted head word and its operands are read from. -/
def State.waiting (s : State) : List Word := s.latched ++ s.chan

/-- Acceptance (R66): `BUSY <- 1`, and the request's words are consumed; `rest` waits. -/
def accept (rest : List Word) (s : State) : State := { s.setBusy with latched := [], chan := rest }

/-- A head word is accepted and its operand words have not all arrived (R66): the block takes those there are and waits with
`BUSY = 1`. Assumption 7. -/
def awaitOperands (s : State) : State := { s.setBusy with latched := s.waiting, chan := [] }

/-- The block accepts no head word although none is in progress: `BUSY = 1` at what should be a request boundary. No run
reaches such a state. Assumption 16. -/
def State.accepting (s : State) : Bool := !s.busy || !s.latched.isEmpty

/-- The request words `ws` at the front of the request channel of an idle block: `BUSY = 0`, nothing latched, nothing held. -/
def placeRequest (ws : List Word) (s : State) : State :=
  { s.clearBusy with latched := [], held := none, chan := ws ++ s.chan }

end Sys2Proof.Machine
end

