-- ==== Sys2Proof/Machine/Burst.lean ====
section
/-!
DEFINITION. The two micro-operations every request is built from: the command step (spec/40_command_sequencer.md R80) and
the window burst with its clipping (spec/41_window_burst.md R100 to R108).
-/

namespace Sys2Proof.Machine

/-- `CS(op, args, delay)` (R80, R81, R84). -/
def commandStep (cfg : Config) (op : Byte) (args : List Byte) (delay : Option Word) : Critical where
  window := none
  body := .cmd op :: args.map .d8
  settle := delay.map delayMs
  snoop := if op = cfg.opMadctl then args.head? else none

/-- The addressing-window commands (R100): column range, row range, begin memory write. -/
def setWindow (cfg : Config) (c0 c1 r0 r1 : Word) : List BusEvent :=
  [.cmd cfg.opCaset, .d16 c0, .d16 c1, .cmd cfg.opRaset, .d16 r0, .d16 r1, .cmd cfg.opRamwr]

/-- A logical column as the window carries it (R100, R108). -/
def sentCol (s : State) (x : Int) : Word := u16 (x + (s.ds.colOffset.toNat : Int))

/-- A logical row as the window carries it (R100, R108). -/
def sentRow (s : State) (y : Int) : Word := u16 (y + (s.ds.rowOffset.toNat : Int))

/-- `WB(x0, y0, x1, y1, words)` (R100). -/
def windowBurst (s : State) (w : Window) (words : List Word) : Critical where
  window := some w
  body := setWindow s.cfg (sentCol s w.x0) (sentCol s w.x1) (sentRow s w.y0) (sentRow s w.y1) ++ words.map .d16
  settle := none
  snoop := none

/-- The number of pixels a window covers (R100). -/
def Window.area (w : Window) : Nat := spanLen w.x0 w.x1 * spanLen w.y0 w.y1

/-- `CLIP(x, y, w, h)` (R102). -/
def clip (s : State) (x y w h : Int) : Option Window :=
  if w ≤ 0 ∨ h ≤ 0 then none
  else
    let xl := max x 0
    let xh := min (x + w - 1) (screenW s - 1)
    let yl := max y 0
    let yh := min (y + h - 1) (screenH s - 1)
    if xl > xh ∨ yl > yh then none else some ⟨xl, yl, xh, yh⟩

/-- `SOLID(x, y, w, h, c)` (R103): no section where nothing is on-screen. -/
def solid (s : State) (x y w h : Int) (c : Word) : List Critical :=
  match clip s x y w h with
  | none => []
  | some win => [windowBurst s win (List.replicate win.area c)]

end Sys2Proof.Machine
end

