-- ==== Sys2Proof/Machine/Lines.lean ====
section
/-!
DEFINITION. Pixels, spans, rectangles and lines (spec/42_raster_lines_rects.md R120 to R127).
-/

namespace Sys2Proof.Machine

/-- The body of PIXEL (R120). -/
def pixel (s : State) (x y : Int) (c : Word) : List Critical :=
  if onScreen s x y then [windowBurst s ⟨x, y, x, y⟩ [colw s c .plain]] else []

/-- PIXEL (R120). -/
def execPixel (x y c : Word) (s : State) : Host.Outcome State Fault Refusal := .next (performBus (pixel s (s16 x) (s16 y) c) s)

/-- The body of HLINE (R121). -/
def hline (s : State) (x y w : Int) (c : Word) : List Critical := solid s x y w 1 (colw s c .hv)

/-- HLINE (R121). -/
def execHline (x y w c : Word) (s : State) : Host.Outcome State Fault Refusal :=
  .next (performBus (hline s (s16 x) (s16 y) (s16 w) c) s)

/-- The body of VLINE (R122). -/
def vline (s : State) (x y h : Int) (c : Word) : List Critical := solid s x y 1 h (colw s c .hv)

/-- VLINE (R122). -/
def execVline (x y h c : Word) (s : State) : Host.Outcome State Fault Refusal :=
  .next (performBus (vline s (s16 x) (s16 y) (s16 h) c) s)

/-- The body of FILL_RECT (R123). -/
def fillRect (s : State) (x y w h : Int) (c : Word) : List Critical := solid s x y w h (colw s c .plain)

/-- FILL_RECT (R123). -/
def execFillRect (x y w h c : Word) (s : State) : Host.Outcome State Fault Refusal :=
  .next (performBus (fillRect s (s16 x) (s16 y) (s16 w) (s16 h) c) s)

/-- The body of RECT (R124): top, bottom, left, right. -/
def rect (s : State) (x y w h : Int) (c : Word) : List Critical :=
  hline s x y w c ++ hline s x (y + h - 1) w c ++ vline s x y h c ++ vline s (x + w - 1) y h c

/-- RECT (R124). -/
def execRect (x y w h c : Word) (s : State) : Host.Outcome State Fault Refusal :=
  .next (performBus (rect s (s16 x) (s16 y) (s16 w) (s16 h) c) s)

/-! ## Lines -/

/-- The loop of LINE_PIXELS (R126): `n` points from major coordinate `u` on, as (major, minor). -/
def linePoints (dx dy ystep : Int) : Nat → Int → Int → Int → List (Int × Int)
  | 0, _, _, _ => []
  | n + 1, u, y, err =>
    (u, y) ::
      (if err - dy < 0 then linePoints dx dy ystep n (u + 1) (y + ystep) (err - dy + dx)
       else linePoints dx dy ystep n (u + 1) y (err - dy))

/-- What LINE_PIXELS returns (R126). -/
structure LinePixels where
  steep : Bool
  /-- The final major coordinate, after the swaps. -/
  xEnd : Int
  /-- The points in order, as (major, minor). -/
  pts : List (Int × Int)
  deriving DecidableEq, Repr

/-- LINE_PIXELS after its swaps (R126): the major coordinate rises from `u0` to `u1`, the minor goes from `v0` to `v1`. -/
def lineScan (steep : Bool) (u0 v0 u1 v1 : Int) : LinePixels where
  steep := steep
  xEnd := u1
  pts := linePoints (u1 - u0) |v1 - v0| (if v0 < v1 then 1 else -1) (spanLen u0 u1) u0 v0 ((u1 - u0) / 2)

/-- The endpoint swap of LINE_PIXELS (R126): iterate the major axis upward. -/
def lineOrder (steep : Bool) (u0 v0 u1 v1 : Int) : LinePixels :=
  if u0 > u1 then lineScan steep u1 v1 u0 v0 else lineScan steep u0 v0 u1 v1

/-- `LINE_PIXELS(x0, y0, x1, y1)` (R126): the axis swap in the steep case, then the endpoint swap, then the loop. -/
def linePixels (x0 y0 x1 y1 : Int) : LinePixels :=
  if |y1 - y0| > |x1 - x0| then lineOrder true y0 x0 y1 x1 else lineOrder false x0 y0 x1 y1

/-- A run of consecutive points with one minor coordinate `m`, major coordinates `a..b` (R127). -/
structure Run where
  a : Int
  b : Int
  m : Int
  deriving DecidableEq, Repr

/-- `RUNS(pts)` (R127): the maximal runs, in order. -/
def runsOf : List (Int × Int) → List Run
  | [] => []
  | (u, m) :: pts =>
    match runsOf pts with
    | [] => [⟨u, u, m⟩]
    | r :: rs => if r.m = m then ⟨u, r.b, m⟩ :: rs else ⟨u, u, m⟩ :: r :: rs

/-- `LINE_RUN(steep, xEnd, run, w)` (R127): the window is the remaining strip, the burst the run's on-screen pixels. -/
def lineRun (s : State) (steep : Bool) (xEnd : Int) (r : Run) (w : Word) : List Critical :=
  let majLim := if steep then screenH s else screenW s
  let minLim := if steep then screenW s else screenH s
  if ¬(0 ≤ r.m ∧ r.m < minLim) then []
  else
    let a' := max r.a 0
    let b' := min r.b (majLim - 1)
    if a' > b' then []
    else
      let e := min xEnd (majLim - 1)
      let words := List.replicate (spanLen a' b') w
      if steep then [windowBurst s ⟨r.m, a', r.m, e⟩ words] else [windowBurst s ⟨a', r.m, e, r.m⟩ words]

/-- The body of LINE (R125). -/
def line (s : State) (x0 y0 x1 y1 : Int) (c : Word) : List Critical :=
  let p := linePixels x0 y0 x1 y1
  (runsOf p.pts).flatMap (fun r => lineRun s p.steep p.xEnd r (colw s c .plain))

/-- LINE (R125). -/
def execLine (x0 y0 x1 y1 c : Word) (s : State) : Host.Outcome State Fault Refusal :=
  .next (performBus (line s (s16 x0) (s16 y0) (s16 x1) (s16 y1) c) s)

end Sys2Proof.Machine
end

