-- ==== Sys2Proof/Machine/Circles.lean ====
section
/-!
DEFINITION. Circles and rounded rectangles (spec/43_raster_circles.md R140 to R148).
-/

namespace Sys2Proof.Machine

/-- The loop of MIDPOINT (R140), with fuel: the points after each step. -/
def midpointLoop : Nat → Int → Int → Int → Int → Int → List (Int × Int)
  | 0, _, _, _, _, _ => []
  | n + 1, f, ddFx, ddFy, x, y =>
    if x < y then
      if 0 ≤ f then
        (x + 1, y - 1) :: midpointLoop n (f + (ddFy + 2) + (ddFx + 2)) (ddFx + 2) (ddFy + 2) (x + 1) (y - 1)
      else
        (x + 1, y) :: midpointLoop n (f + (ddFx + 2)) (ddFx + 2) ddFy (x + 1) y
    else []

/-- `MIDPOINT(r)` (R140). The loop ends after at most `r` steps, so `r` is fuel enough. -/
def midpointSteps (r : Int) : List (Int × Int) := midpointLoop r.toNat (1 - r) 1 (-2 * r) 0 r

/-- The eight reflections of a midpoint step, in CIRCLE's order (R141). -/
def circleStep (s : State) (x0 y0 : Int) (c : Word) (p : Int × Int) : List Critical :=
  pixel s (x0 + p.1) (y0 + p.2) c ++ pixel s (x0 - p.1) (y0 + p.2) c
    ++ pixel s (x0 + p.1) (y0 - p.2) c ++ pixel s (x0 - p.1) (y0 - p.2) c
    ++ pixel s (x0 + p.2) (y0 + p.1) c ++ pixel s (x0 - p.2) (y0 + p.1) c
    ++ pixel s (x0 + p.2) (y0 - p.1) c ++ pixel s (x0 - p.2) (y0 - p.1) c

/-- The body of CIRCLE (R141). -/
def circle (s : State) (x0 y0 r : Int) (c : Word) : List Critical :=
  pixel s x0 (y0 + r) c ++ pixel s x0 (y0 - r) c ++ pixel s (x0 + r) y0 c ++ pixel s (x0 - r) y0 c
    ++ (midpointSteps r).flatMap (circleStep s x0 y0 c)

/-- CIRCLE (R141). -/
def execCircle (x0 y0 r c : Word) (s : State) : Host.Outcome State Fault Refusal :=
  .next (performBus (circle s (s16 x0) (s16 y0) (s16 r) c) s)

/-- The sections if a condition holds. -/
def drawIf (b : Bool) (cs : List Critical) : List Critical := if b then cs else []

/-- The quadrant bits of a mask (R147): upper-left, upper-right, lower-right, lower-left. -/
def quadUL (m : BitVec 4) : Bool := m.getLsbD 0
def quadUR (m : BitVec 4) : Bool := m.getLsbD 1
def quadLR (m : BitVec 4) : Bool := m.getLsbD 2
def quadLL (m : BitVec 4) : Bool := m.getLsbD 3

/-- The reflections of a midpoint step in the selected quadrants, in CIRCLE_HELPER's order (R142). -/
def circleHelperStep (s : State) (x0 y0 : Int) (m : BitVec 4) (c : Word) (p : Int × Int) : List Critical :=
  drawIf (quadLR m) (pixel s (x0 + p.1) (y0 + p.2) c ++ pixel s (x0 + p.2) (y0 + p.1) c)
    ++ drawIf (quadUR m) (pixel s (x0 + p.1) (y0 - p.2) c ++ pixel s (x0 + p.2) (y0 - p.1) c)
    ++ drawIf (quadLL m) (pixel s (x0 - p.2) (y0 + p.1) c ++ pixel s (x0 - p.1) (y0 + p.2) c)
    ++ drawIf (quadUL m) (pixel s (x0 - p.2) (y0 - p.1) c ++ pixel s (x0 - p.1) (y0 - p.2) c)

/-- The body of CIRCLE_HELPER (R142): bottom, top, right and left axis points, then the midpoint steps. -/
def circleHelper (s : State) (x0 y0 r : Int) (m : BitVec 4) (c : Word) : List Critical :=
  drawIf (quadLR m || quadLL m) (pixel s x0 (y0 + r) c)
    ++ drawIf (quadUL m || quadUR m) (pixel s x0 (y0 - r) c)
    ++ drawIf (quadUR m || quadLR m) (pixel s (x0 + r) y0 c)
    ++ drawIf (quadUL m || quadLL m) (pixel s (x0 - r) y0 c)
    ++ (midpointSteps r).flatMap (circleHelperStep s x0 y0 m c)

/-- CIRCLE_HELPER (R142). -/
def execCircleHelper (m : BitVec 4) (x0 y0 r c : Word) (s : State) : Host.Outcome State Fault Refusal :=
  .next (performBus (circleHelper s (s16 x0) (s16 y0) (s16 r) m c) s)

/-- The half-mask bits (R147): right half, left half. -/
def halfRight (m : BitVec 2) : Bool := m.getLsbD 0
def halfLeft (m : BitVec 2) : Bool := m.getLsbD 1

/-- The spans of a midpoint step (R144). -/
def fillHelperStep (s : State) (x0 y0 : Int) (m : BitVec 2) (extra : Int) (c : Word) (p : Int × Int) : List Critical :=
  drawIf (halfRight m)
      (vline s (x0 + p.1) (y0 - p.2) (2 * p.2 + 1 + extra) c ++ vline s (x0 + p.2) (y0 - p.1) (2 * p.1 + 1 + extra) c)
    ++ drawIf (halfLeft m)
      (vline s (x0 - p.1) (y0 - p.2) (2 * p.2 + 1 + extra) c ++ vline s (x0 - p.2) (y0 - p.1) (2 * p.1 + 1 + extra) c)

/-- The body of FILL_CIRCLE_HELPER (R144). -/
def fillCircleHelper (s : State) (x0 y0 r : Int) (m : BitVec 2) (extra : Int) (c : Word) : List Critical :=
  (midpointSteps r).flatMap (fillHelperStep s x0 y0 m extra c)

/-- FILL_CIRCLE_HELPER (R144). -/
def execFillCircleHelper (m : BitVec 2) (x0 y0 r extra c : Word) (s : State) : Host.Outcome State Fault Refusal :=
  .next (performBus (fillCircleHelper s (s16 x0) (s16 y0) (s16 r) m (s16 extra) c) s)

/-- The body of FILL_CIRCLE (R143): the centre column, then both halves. -/
def fillCircle (s : State) (x0 y0 r : Int) (c : Word) : List Critical :=
  vline s x0 (y0 - r) (2 * r + 1) c ++ fillCircleHelper s x0 y0 r 3 0 c

/-- FILL_CIRCLE (R143). -/
def execFillCircle (x0 y0 r c : Word) (s : State) : Host.Outcome State Fault Refusal :=
  .next (performBus (fillCircle s (s16 x0) (s16 y0) (s16 r) c) s)

/-- The body of ROUND_RECT (R145): four edges, then the four corners. Where `2r` exceeds one side only, assumption 33. -/
def roundRect (s : State) (x y w h r : Int) (c : Word) : List Critical :=
  hline s (x + r) y (w - 2 * r) c ++ hline s (x + r) (y + h - 1) (w - 2 * r) c
    ++ vline s x (y + r) (h - 2 * r) c ++ vline s (x + w - 1) (y + r) (h - 2 * r) c
    ++ circleHelper s (x + r) (y + r) r 1 c
    ++ circleHelper s (x + w - r - 1) (y + r) r 2 c
    ++ circleHelper s (x + w - r - 1) (y + h - r - 1) r 4 c
    ++ circleHelper s (x + r) (y + h - r - 1) r 8 c

/-- ROUND_RECT (R145). -/
def execRoundRect (x y w h r c : Word) (s : State) : Host.Outcome State Fault Refusal :=
  .next (performBus (roundRect s (s16 x) (s16 y) (s16 w) (s16 h) (s16 r) c) s)

/-- The body of FILL_ROUND_RECT (R146): the inset rectangle, the right side, the left side. -/
def fillRoundRect (s : State) (x y w h r : Int) (c : Word) : List Critical :=
  fillRect s (x + r) y (w - 2 * r) h c
    ++ fillCircleHelper s (x + w - r - 1) (y + r) r 1 (h - 2 * r - 1) c
    ++ fillCircleHelper s (x + r) (y + r) r 2 (h - 2 * r - 1) c

/-- FILL_ROUND_RECT (R146). -/
def execFillRoundRect (x y w h r c : Word) (s : State) : Host.Outcome State Fault Refusal :=
  .next (performBus (fillRoundRect s (s16 x) (s16 y) (s16 w) (s16 h) (s16 r) c) s)

end Sys2Proof.Machine
end

