-- ==== Sys2Proof/Machine/Control.lean ====
section
/-!
DEFINITION. Display state control, queries and colour packing (spec/46_display_control.md R200 to R207).
-/

namespace Sys2Proof.Machine

/-- NOP (R206): acceptance and completion only. -/
def execNop (s : State) : Host.Outcome State Fault Refusal := .next (performRegs id s)

/-- SET_ROTATION's commit (R200). -/
def commitRotation (rr : BitVec 2) (m : Byte) (s : State) : State :=
  { s with
    ds := { s.ds with
      rotation := rr
      width := logicalWidth s.cfg rr
      height := logicalHeight s.cfg rr
      madctl := m } }

/-- SET_ROTATION (R200). -/
def execSetRotation (r : Byte) (s : State) : Host.Outcome State Fault Refusal :=
  let rr := rotationOperand r
  let m := rotMadctl s.cfg s.ds.variant rr
  .next (perform [commandStep s.cfg s.cfg.opMadctl [m] none] (commitRotation rr m) s)

/-- GET_ROTATION (R201). -/
def execGetRotation (s : State) : Host.Outcome State Fault Refusal :=
  .next (performRegs (respond (s.ds.rotation.setWidth 16)) s)

/-- INVERT (R202). -/
def execInvert (f : Bool) (s : State) : Host.Outcome State Fault Refusal :=
  .next (performBus [commandStep s.cfg (if f then s.cfg.opInvon else s.cfg.opInvoff) [] none] s)

/-- GET_WIDTH (R203). -/
def execGetWidth (s : State) : Host.Outcome State Fault Refusal := .next (performRegs (respond s.ds.width) s)

/-- GET_HEIGHT (R204). -/
def execGetHeight (s : State) : Host.Outcome State Fault Refusal := .next (performRegs (respond s.ds.height) s)

/-- COLOR565 (R205). -/
def execColor565 (r g b : Byte) (s : State) : Host.Outcome State Fault Refusal :=
  .next (performRegs (respond (pack565 r g b)) s)

/-- CLEAR_STATUS (R207). -/
def execClearStatus (s : State) : Host.Outcome State Fault Refusal := .next (performRegs State.clearSticky s)

end Sys2Proof.Machine
end

