-- ==== Sys2Proof/Machine/Glyph.lean ====
section
/-!
DEFINITION. The glyph renderer and the text stream (spec/45_glyph_text.md R180 to R190).
-/

namespace Sys2Proof.Machine

/-! ## The glyph cell -/

/-- The six columns of a cell (R180): the glyph's five, then the blank spacer. -/
def cellColumns (cfg : Config) (code : Byte) : List Byte := fontRead cfg code ++ [0x00]

/-- Column `i` of a cell. -/
def cellColumn (cols : List Byte) (i : Nat) : Byte := cols.getD i 0x00

/-- `cols[i][j] = 1`: bit `j` of column `i`, the least significant bit on top (R182). -/
def cellBit (cols : List Byte) (i j : Nat) : Bool := (cellColumn cols i).getLsbD j

/-- The positions of a cell in drawing order: columns outer, rows inner (R182, R183). -/
def cellOrder : List (Nat × Nat) := (List.range 6).flatMap fun (i : Nat) => (List.range 8).map fun (j : Nat) => (i, j)

/-- `FAST_OK` (R181); `s` is the scale after 0 has been read as 1. -/
def fastOk (st : State) (x y : Int) (fg bg : Word) (s : Byte) (g : Bool) : Bool :=
  decide (s = 1) && decide (bg ≠ fg) && !g
    && decide (0 ≤ x) && decide (x + 5 < screenW st) && decide (0 ≤ y) && decide (y + 7 < screenH st)

/-- The 48 colour words of the fast path (R182). -/
def fastWords (st : State) (fg bg : Word) (cols : List Byte) : List Word :=
  cellOrder.map fun p => colw st (if cellBit cols p.1 p.2 then fg else bg) .plain

/-- GLYPH_FAST (R182): one critical section; the column-address range carries the cell's rows and `rowOffset`. -/
def glyphFast (st : State) (x y : Int) (fg bg : Word) (cols : List Byte) : Critical where
  window := some ⟨x, y, x + 5, y + 7⟩
  body :=
    [.cmd st.cfg.opMadctl, .d8 (st.ds.madctl ^^^ st.cfg.glyphToggle)]
      ++ setWindow st.cfg (sentRow st y) (sentRow st (y + 7)) (sentCol st x) (sentCol st (x + 5))
      ++ (fastWords st fg bg cols).map .d16
      ++ [.cmd st.cfg.opMadctl, .d8 st.ds.madctl]
  settle := none
  snoop := none

/-- `DOT(x, y, i, j, s, c)` (R183). -/
def dot (st : State) (x y : Int) (i j : Nat) (s : Byte) (c : Word) : List Critical :=
  if s = 1 then pixel st (x + (i : Int)) (y + (j : Int)) c
  else
    fillRect st (x + (i : Int) * (s.toNat : Int)) (y + (j : Int) * (s.toNat : Int)) (s.toNat : Int) (s.toNat : Int) c

/-- GLYPH_GENERAL (R183). -/
def glyphGeneral (st : State) (x y : Int) (fg bg : Word) (s : Byte) (cols : List Byte) : List Critical :=
  cellOrder.flatMap fun p =>
    if cellBit cols p.1 p.2 then dot st x y p.1 p.2 s fg
    else if bg ≠ fg then dot st x y p.1 p.2 s bg
    else []

/-- The body of DRAW_CHAR (R180): the font is read once, at the start (R190). -/
def drawChar (st : State) (x y : Int) (fg bg : Word) (sraw code : Byte) (g : Bool) : List Critical :=
  let s := scaleOf sraw
  let cols := cellColumns st.cfg code
  if fastOk st x y fg bg s g then [glyphFast st x y fg bg cols] else glyphGeneral st x y fg bg s cols

/-- DRAW_CHAR (R180). -/
def execDrawChar (g : Bool) (x y fg bg : Word) (scale code : Byte) (s : State) : Host.Outcome State Fault Refusal :=
  .next (performBus (drawChar s (s16 x) (s16 y) fg bg scale code g) s)

/-! ## The text stream -/

/-- What WRITE_CHAR does with a code (R185): where it draws, if it draws, and where the cursor ends. -/
structure TextMove where
  drawAt : Option (Int × Int)
  cursor : Int × Int
  deriving DecidableEq, Repr

/-- The cursor after a newline (R185). -/
def newline (s : State) : Int × Int := (0, s16 s.ds.cursorY + 8 * (s.ds.textScale.toNat : Int))

/-- Whether the next glyph would exceed the right margin, with wrapping enabled (R185). -/
def wraps (s : State) : Bool :=
  s.ds.wrap && decide (s16 s.ds.cursorX + 6 * (s.ds.textScale.toNat : Int) > screenW s)

/-- The cursor a printable character is drawn at (R185). -/
def penAt (s : State) : Int × Int := if wraps s then newline s else (s16 s.ds.cursorX, s16 s.ds.cursorY)

/-- WRITE_CHAR's move (R185): `\n`, `\r`, or a printable character. -/
def textMove (s : State) (code : Byte) : TextMove :=
  if code = 0x0A then ⟨none, newline s⟩
  else if code = 0x0D then ⟨none, (s16 s.ds.cursorX, s16 s.ds.cursorY)⟩
  else ⟨some (penAt s), ((penAt s).1 + 6 * (s.ds.textScale.toNat : Int), (penAt s).2)⟩

/-- The critical sections of WRITE_CHAR (R185): the body of DRAW_CHAR where it draws. -/
def textSections (s : State) (code : Byte) : List Critical :=
  match (textMove s code).drawAt with
  | some p => drawChar s p.1 p.2 s.ds.textColor s.ds.textBg s.ds.textScale code false
  | none => []

/-- WRITE_CHAR's commit (R185): the cursor registers are reduced modulo 2^16. -/
def commitCursor (p : Int × Int) (s : State) : State := { s with ds := { s.ds with cursorX := u16 p.1, cursorY := u16 p.2 } }

/-- WRITE_CHAR (R185). -/
def execWriteChar (code : Byte) (s : State) : Host.Outcome State Fault Refusal :=
  .next (perform (textSections s code) (commitCursor (textMove s code).cursor) s)

/-- SET_CURSOR (R186). -/
def execSetCursor (x y : Word) (s : State) : Host.Outcome State Fault Refusal :=
  .next (performRegs (fun t => { t with ds := { t.ds with cursorX := x, cursorY := y } }) s)

/-- SET_TEXT_COLOR (R187). -/
def execSetTextColor (fg bg : Word) (s : State) : Host.Outcome State Fault Refusal :=
  .next (performRegs (fun t => { t with ds := { t.ds with textColor := fg, textBg := bg } }) s)

/-- SET_TEXT_SCALE (R188): 0 is stored as 1. -/
def execSetTextScale (sc : Byte) (s : State) : Host.Outcome State Fault Refusal :=
  .next (performRegs (fun t => { t with ds := { t.ds with textScale := scaleOf sc } }) s)

/-- SET_TEXT_WRAP (R189). -/
def execSetTextWrap (f : Bool) (s : State) : Host.Outcome State Fault Refusal :=
  .next (performRegs (fun t => { t with ds := { t.ds with wrap := f } }) s)

end Sys2Proof.Machine
end

