-- ==== Sys2Proof/Machine/Sequencer.lean ====
section
/-!
DEFINITION. RUN_TABLE and INIT (spec/40_command_sequencer.md R82 to R87).
-/

namespace Sys2Proof.Machine

/-- The command steps of an init table, in order (R82, R85). -/
def tableSteps (cfg : Config) (t : Fin 5) : List Critical :=
  (tableRead cfg t).map (fun st => commandStep cfg st.opcode st.args st.delay)

/-- `if pendMad = some m: S.madctl <- m` (R82, R83, R84). -/
def commitMadctl (s : State) : State := { s with ds := { s.ds with madctl := s.pendMad.getD s.ds.madctl } }

/-- RUN_TABLE (R82). A table id of 5 to 7 is an IllegalRequest (R82 Exceptions); the decoder already refuses it. Assumption 15. -/
def execRunTable (t : BitVec 3) (s : State) : Host.Outcome State Fault Refusal :=
  .next (if h : t.toNat < 5 then perform (tableSteps s.cfg ⟨t.toNat, h⟩) commitMadctl s else takeIllegalRequest s)

/-- The command steps INIT sends (R83). -/
def initSteps (cfg : Config) (v : BitVec 2) : List Critical :=
  (variantCfg cfg v).tables.flatMap (tableSteps cfg)
    ++ ((variantCfg cfg v).postMadctl.map (fun m => commandStep cfg cfg.opMadctl [m] none)).toList

/-- INIT's commit (R83). -/
def commitInit (v : BitVec 2) (s : State) : State :=
  commitMadctl
    { s with
      ds := { s.ds with
        variant := v
        colOffset := (variantCfg s.cfg v).colOffset
        rowOffset := (variantCfg s.cfg v).rowOffset
        colorSwap := (variantCfg s.cfg v).colorSwap
        rotation := 0
        width := BitVec.ofNat 16 s.cfg.panelW
        height := BitVec.ofNat 16 s.cfg.panelH } }

/-- INIT (R83). -/
def execInit (v : BitVec 2) (s : State) : Host.Outcome State Fault Refusal :=
  .next (perform (initSteps s.cfg v) (commitInit v) s)

end Sys2Proof.Machine
end

