-- ==== Sys2Proof/Machine/Triangles.lean ====
section
/-!
DEFINITION. Triangles and the bitmap blit (spec/44_raster_triangles_bitmap.md R160 to R163).
-/

namespace Sys2Proof.Machine

/-- The body of TRIANGLE (R160). -/
def triangle (s : State) (x0 y0 x1 y1 x2 y2 : Int) (c : Word) : List Critical :=
  line s x0 y0 x1 y1 c ++ line s x1 y1 x2 y2 c ++ line s x2 y2 x0 y0 c

/-- TRIANGLE (R160). -/
def execTriangle (x0 y0 x1 y1 x2 y2 c : Word) (s : State) : Host.Outcome State Fault Refusal :=
  .next (performBus (triangle s (s16 x0) (s16 y0) (s16 x1) (s16 y1) (s16 x2) (s16 y2) c) s)

/-! ## The filled triangle -/

/-- A vertex. -/
structure Vertex where
  x : Int
  y : Int
  deriving DecidableEq, Repr

/-- One compare-exchange of the sort, on strict `>` (R161). -/
def orderByY (p q : Vertex) : Vertex × Vertex := if p.y > q.y then (q, p) else (p, q)

/-- The three vertices sorted by `y` (R161). -/
def sortByY (p q r : Vertex) : Vertex × Vertex × Vertex :=
  let (a, b) := orderByY p q
  let (b, c) := orderByY b r
  let (a, b) := orderByY a b
  (a, b, c)

/-- The HLINE of one scanline between two crossings in either order (R161). -/
def scanSpan (s : State) (a b y : Int) (c : Word) : List Critical :=
  if a > b then hline s b y (a - b + 1) c else hline s a y (b - a + 1) c

/-- One of FILL_TRIANGLE's two loops (R161): `n` scanlines from `y` on; the edge of accumulator `sa` starts at column `xa` with
height `dya` and slope `dxa`, that of `sb` at `xb` with `dyb`, `dxb`. -/
def scanEdges (s : State) (c : Word) (xa dxa dya xb dxb dyb : Int) : Nat → Int → Int → Int → List Critical
  | 0, _, _, _ => []
  | n + 1, y, sa, sb =>
    scanSpan s (xa + tdiv sa dya) (xb + tdiv sb dyb) y c
      ++ scanEdges s c xa dxa dya xb dxb dyb n (y + 1) (sa + dxa) (sb + dxb)

/-- FILL_TRIANGLE for sorted vertices that are not all on one row (R161). -/
def fillSorted (s : State) (p0 p1 p2 : Vertex) (c : Word) : List Critical :=
  let dx01 := p1.x - p0.x
  let dy01 := p1.y - p0.y
  let dx02 := p2.x - p0.x
  let dy02 := p2.y - p0.y
  let dx12 := p2.x - p1.x
  let dy12 := p2.y - p1.y
  let last := if p1.y = p2.y then p1.y else p1.y - 1
  let n := spanLen p0.y last
  let y := p0.y + (n : Int)
  scanEdges s c p0.x dx01 dy01 p0.x dx02 dy02 n p0.y 0 0
    ++ scanEdges s c p1.x dx12 dy12 p0.x dx02 dy02 (spanLen y p2.y) y (dx12 * (y - p1.y)) (dx02 * (y - p0.y))

/-- The body of FILL_TRIANGLE (R161). -/
def fillTriangle (s : State) (x0 y0 x1 y1 x2 y2 : Int) (c : Word) : List Critical :=
  let (p0, p1, p2) := sortByY ⟨x0, y0⟩ ⟨x1, y1⟩ ⟨x2, y2⟩
  if p0.y = p2.y then
    let a := min p0.x (min p1.x p2.x)
    let b := max p0.x (max p1.x p2.x)
    hline s a p0.y (b - a + 1) c
  else fillSorted s p0 p1 p2 c

/-- FILL_TRIANGLE (R161). -/
def execFillTriangle (x0 y0 x1 y1 x2 y2 c : Word) (s : State) : Host.Outcome State Fault Refusal :=
  .next (performBus (fillTriangle s (s16 x0) (s16 y0) (s16 x1) (s16 y1) (s16 x2) (s16 y2) c) s)

/-! ## The bitmap blit -/

/-- The row stride in bytes, `ceil(w/8)` (R163). -/
def bitmapStride (w : Nat) : Nat := (w + 7) / 8

/-- The pixel at column `i` of a bitmap byte, most significant bit first (R41, R163). -/
def bitmapBit (b : Byte) (i : Nat) : Bool := b.getLsbD (7 - i % 8)

/-- The pixel at column `i`, row `j` of the bitmap at `addr` (R163); it is the `j * w + i`-th byte read. -/
def bitmapPixel (s : State) (addr w j i : Nat) : Bool :=
  bitmapBit (memReadRacing s (j * w + i) (addr + j * bitmapStride w + i / 8)) i

/-- The body of BITMAP (R163), rows outer, columns inner. A non-positive `w` or `h` gives no row or column. -/
def bitmapBlit (s : State) (x y w h : Int) (c : Word) (addr : Nat) : List Critical :=
  if w ≤ 0 ∨ h ≤ 0 then []
  else
    (List.range h.toNat).flatMap fun (j : Nat) =>
    (List.range w.toNat).flatMap fun (i : Nat) =>
    if bitmapPixel s addr w.toNat j i then pixel s (x + (i : Int)) (y + (j : Int)) c else []

/-- How many bytes BITMAP reads (R163): one a pixel, none for a non-positive extent. -/
def bitmapReads (w h : Int) : Nat := w.toNat * h.toNat

/-- BITMAP (R163). The bytes another agent changes meanwhile have landed when it ends (R50). -/
def execBitmap (x y w h c : Word) (addr : BitVec 32) (s : State) : Host.Outcome State Fault Refusal :=
  .next (performBus (bitmapBlit s (s16 x) (s16 y) (s16 w) (s16 h) c addr.toNat)
    (settleRace (bitmapReads (s16 w) (s16 h)) s))

end Sys2Proof.Machine
end

