-- ==== Sys2Proof/Machine/Dispatch.lean ====
section
/-!
DEFINITION. The one dispatch from a request to its meaning (spec/30_encoding.md R65).
-/

namespace Sys2Proof.Machine

def exec (i : Instr) (s : State) : Host.Outcome State Fault Refusal :=
  match i with
  | .nop => Sys2Proof.Machine.execNop s
  | .init v => Sys2Proof.Machine.execInit v s
  | .runTable t => Sys2Proof.Machine.execRunTable t s
  | .setRotation r => Sys2Proof.Machine.execSetRotation r s
  | .getRotation => Sys2Proof.Machine.execGetRotation s
  | .invert f => Sys2Proof.Machine.execInvert f s
  | .getWidth => Sys2Proof.Machine.execGetWidth s
  | .getHeight => Sys2Proof.Machine.execGetHeight s
  | .color565 r g b => Sys2Proof.Machine.execColor565 r g b s
  | .clearStatus => Sys2Proof.Machine.execClearStatus s
  | .pixel x y c => Sys2Proof.Machine.execPixel x y c s
  | .hline x y w c => Sys2Proof.Machine.execHline x y w c s
  | .vline x y h c => Sys2Proof.Machine.execVline x y h c s
  | .fillRect x y w h c => Sys2Proof.Machine.execFillRect x y w h c s
  | .rect x y w h c => Sys2Proof.Machine.execRect x y w h c s
  | .line x0 y0 x1 y1 c => Sys2Proof.Machine.execLine x0 y0 x1 y1 c s
  | .circle x0 y0 r c => Sys2Proof.Machine.execCircle x0 y0 r c s
  | .circleHelper m x0 y0 r c => Sys2Proof.Machine.execCircleHelper m x0 y0 r c s
  | .fillCircle x0 y0 r c => Sys2Proof.Machine.execFillCircle x0 y0 r c s
  | .fillCircleHelper m x0 y0 r extra c => Sys2Proof.Machine.execFillCircleHelper m x0 y0 r extra c s
  | .roundRect x y w h r c => Sys2Proof.Machine.execRoundRect x y w h r c s
  | .fillRoundRect x y w h r c => Sys2Proof.Machine.execFillRoundRect x y w h r c s
  | .triangle x0 y0 x1 y1 x2 y2 c => Sys2Proof.Machine.execTriangle x0 y0 x1 y1 x2 y2 c s
  | .fillTriangle x0 y0 x1 y1 x2 y2 c => Sys2Proof.Machine.execFillTriangle x0 y0 x1 y1 x2 y2 c s
  | .bitmap x y w h c addr => Sys2Proof.Machine.execBitmap x y w h c addr s
  | .drawChar g x y fg bg scale code => Sys2Proof.Machine.execDrawChar g x y fg bg scale code s
  | .writeChar code => Sys2Proof.Machine.execWriteChar code s
  | .setCursor x y => Sys2Proof.Machine.execSetCursor x y s
  | .setTextColor fg bg => Sys2Proof.Machine.execSetTextColor fg bg s
  | .setTextScale sc => Sys2Proof.Machine.execSetTextScale sc s
  | .setTextWrap f => Sys2Proof.Machine.execSetTextWrap f s

end Sys2Proof.Machine
end

