-- ==== Sys2Proof/Machine/Step.lean ====
section
/-!
DEFINITION. One step of the block: the next request of the request channel, whole (spec/10_state.md R20, R21,
spec/30_encoding.md R66, spec/60_exceptions.md R221, R223).
-/

namespace Sys2Proof.Machine

/-- One step. A block held for ever is stuck (R223); an idle block with no word waiting stays idle (R21, R52); a head word
without all its operand words is accepted and waits (R66); an illegal head word takes IllegalRequest (R221); otherwise
the request is accepted and performed (R66). -/
def step (s : State) : Host.Outcome State Fault Refusal :=
  match s.held with
  | some .drain => .fault .heldAtDrain
  | some .sleep => .fault .heldAtSleep
  | none =>
    if s.accepting then
      match decode s.waiting with
      | .idle => .next s
      | .needOperands => .next (awaitOperands s)
      | .illegal _ rest => .next (takeIllegalRequest (accept rest s))
      | .ok i rest => exec i (accept rest s)
    else .next s

/-- The request of a table word placed where `step` takes its next request (assumption 12). -/
def State.withFetchWord (s : State) (nbits w : Nat) : State := placeRequest (tableRequest nbits w) s

end Sys2Proof.Machine
end

