-- ==== Sys2Proof/Machine/Asm.lean ====
section
/-!
DEFINITION. The assembler (spec/30_encoding.md R69) and the pseudo-instructions (R77): from a mnemonic and its list of integers to
requests, and before it the lexing of a line of text. Assumption 20.
-/

namespace Sys2Proof.Machine

/-- A coordinate, length, radius or extra operand: it fits 16 signed bits (R62). -/
def asmCoord (v : Int) : Option Word := if -32768 ≤ v ∧ v ≤ 32767 then some (BitVec.ofInt 16 v) else none

/-- An unsigned operand or immediate of `n` bits (R62). -/
def asmBits (n : Nat) (v : Int) : Option (BitVec n) := if 0 ≤ v ∧ v < 2 ^ n then some (BitVec.ofInt n v) else none

/-- A one-bit flag (R62). -/
def asmFlag (v : Int) : Option Bool := if v = 0 then some false else if v = 1 then some true else none

/-- The control and text requests whose operands are small immediates (R69). -/
def assembleImmediate (mnemonic : String) (v : Int) : Option Instr :=
  match mnemonic with
  | "INIT" => (asmBits 2 v).map .init
  | "RUN_TABLE" => (asmBits 3 v).map .runTable
  | "SET_ROTATION" => (asmBits 8 v).map .setRotation
  | "INVERT" => (asmFlag v).map .invert
  | "WRITE_CHAR" => (asmBits 8 v).map .writeChar
  | "SET_TEXT_SCALE" => (asmBits 8 v).map .setTextScale
  | "SET_TEXT_WRAP" => (asmFlag v).map .setTextWrap
  | _ => none

/-- The requests with no operand (R69). -/
def assembleBare (mnemonic : String) : Option Instr :=
  match mnemonic with
  | "NOP" => some .nop
  | "GET_ROTATION" => some .getRotation
  | "GET_WIDTH" => some .getWidth
  | "GET_HEIGHT" => some .getHeight
  | "CLEAR_STATUS" => some .clearStatus
  | _ => none

/-- The requests of coordinates and one colour, with the colour split off (R69). -/
def assembleShape (mnemonic : String) (vs : List Int) (c : Word) : Option Instr := do
  match mnemonic, ← vs.mapM asmCoord with
  | "PIXEL", [x, y] => some (.pixel x y c)
  | "HLINE", [x, y, w] => some (.hline x y w c)
  | "VLINE", [x, y, h] => some (.vline x y h c)
  | "FILL_RECT", [x, y, w, h] => some (.fillRect x y w h c)
  | "RECT", [x, y, w, h] => some (.rect x y w h c)
  | "LINE", [x0, y0, x1, y1] => some (.line x0 y0 x1 y1 c)
  | "CIRCLE", [x0, y0, r] => some (.circle x0 y0 r c)
  | "FILL_CIRCLE", [x0, y0, r] => some (.fillCircle x0 y0 r c)
  | "ROUND_RECT", [x, y, w, h, r] => some (.roundRect x y w h r c)
  | "FILL_ROUND_RECT", [x, y, w, h, r] => some (.fillRoundRect x y w h r c)
  | "TRIANGLE", [x0, y0, x1, y1, x2, y2] => some (.triangle x0 y0 x1 y1 x2 y2 c)
  | "FILL_TRIANGLE", [x0, y0, x1, y1, x2, y2] => some (.fillTriangle x0 y0 x1 y1 x2 y2 c)
  | _, _ => none

/-- One request (R69): its SUB immediate, if any, then its operands in the order of the opcode map. -/
def assembleOne (mnemonic : String) (vs : List Int) : Option Instr :=
  match mnemonic, vs with
  | m, [] => assembleBare m
  | m, [v] => assembleImmediate m v
  | "COLOR565", [r, g, b] => do some (.color565 (← asmBits 8 r) (← asmBits 8 g) (← asmBits 8 b))
  | "SET_CURSOR", [x, y] => do some (.setCursor (← asmCoord x) (← asmCoord y))
  | "SET_TEXT_COLOR", [fg, bg] => do some (.setTextColor (← asmBits 16 fg) (← asmBits 16 bg))
  | "CIRCLE_HELPER", [m, x0, y0, r, c] => do
    some (.circleHelper (← asmBits 4 m) (← asmCoord x0) (← asmCoord y0) (← asmCoord r) (← asmBits 16 c))
  | "FILL_CIRCLE_HELPER", [m, x0, y0, r, extra, c] => do
    some (.fillCircleHelper (← asmBits 2 m) (← asmCoord x0) (← asmCoord y0) (← asmCoord r) (← asmCoord extra) (← asmBits 16 c))
  | "BITMAP", [x, y, w, h, c, addr] => do
    some (.bitmap (← asmCoord x) (← asmCoord y) (← asmCoord w) (← asmCoord h) (← asmBits 16 c) (← asmBits 32 addr))
  | "DRAW_CHAR", [g, x, y, fg, bg, scale, code] => do
    some (.drawChar (← asmFlag g) (← asmCoord x) (← asmCoord y) (← asmBits 16 fg) (← asmBits 16 bg) (← asmBits 8 scale)
      (← asmBits 8 code))
  | m, vs => do assembleShape m vs.dropLast (← asmBits 16 (← vs.getLast?))

/-- `FILL_SCREEN c` (R77). -/
def fillScreen (c : Word) : Instr := .fillRect 0 0 0x7FFF 0x7FFF c

/-- `SET_TEXT_COLOR1 c` (R77): transparent text. -/
def setTextColor1 (c : Word) : Instr := .setTextColor c c

/-- `WRITE_STR "s"` (R77): one WRITE_CHAR per byte. -/
def writeStr (codes : List Byte) : List Instr := codes.map .writeChar

/-- A mnemonic and its list of integers (R69, R77): the requests they stand for. The list of WRITE_STR is the codes of its string. -/
def assemble (mnemonic : String) (vs : List Int) : Option (List Instr) :=
  match mnemonic with
  | "FILL_SCREEN" =>
    match vs with
    | [c] => (asmBits 16 c).map (fun c => [fillScreen c])
    | _ => none
  | "SET_TEXT_COLOR1" =>
    match vs with
    | [c] => (asmBits 16 c).map (fun c => [setTextColor1 c])
    | _ => none
  | "WRITE_STR" => (vs.mapM (asmBits 8)).map writeStr
  | m => ((assembleOne m vs).filter Instr.wf).map (fun i => [i])

/-! ## Lines of text -/

/-- The value of a decimal or hexadecimal digit. -/
def asmDigit (c : Char) : Option Nat :=
  if '0' ≤ c ∧ c ≤ '9' then some (c.toNat - '0'.toNat)
  else if 'a' ≤ c ∧ c ≤ 'f' then some (c.toNat - 'a'.toNat + 10)
  else if 'A' ≤ c ∧ c ≤ 'F' then some (c.toNat - 'A'.toNat + 10)
  else none

/-- The number whose digits to a base follow those of `n`. -/
def asmDigits (base : Nat) : Nat → List Char → Option Nat
  | n, [] => some n
  | n, c :: cs =>
    match asmDigit c with
    | some d => if d < base then asmDigits base (n * base + d) cs else none
    | none => none

/-- An unsigned integer, decimal or `0x` hexadecimal (R69). -/
def asmNat : List Char → Option Nat
  | [] => none
  | '0' :: 'x' :: c :: cs => asmDigits 16 0 (c :: cs)
  | cs => asmDigits 10 0 cs

/-- The 8-bit code of a character (R69). -/
def asmCode (c : Char) : Option Int := if c.toNat < 256 then some (c.toNat : Int) else none

/-- An operand: an integer, which may be negative, or a character literal (R69). -/
def asmInt : List Char → Option Int
  | ['\'', c, '\''] => asmCode c
  | '-' :: cs => (asmNat cs).map (fun n => -(n : Int))
  | cs => (asmNat cs).map (fun n => (n : Int))

/-- A text without the blanks at its ends. -/
def asmTrim (cs : List Char) : List Char := ((cs.dropWhile (· == ' ')).reverse.dropWhile (· == ' ')).reverse

/-- A text split at its commas, but for those of a character literal; `acc` is the part read so far, backwards. -/
def asmSplit : List Char → List Char → List (List Char)
  | acc, [] => [acc.reverse]
  | acc, '\'' :: c :: '\'' :: cs => asmSplit ('\'' :: c :: '\'' :: acc) cs
  | acc, ',' :: cs => acc.reverse :: asmSplit [] cs
  | acc, c :: cs => asmSplit (c :: acc) cs

/-- The bytes of a string literal, the text between its two quotation marks (R77). -/
def asmString : List Char → Option (List Int)
  | '"' :: cs => if cs.getLast? = some '"' then cs.dropLast.mapM asmCode else none
  | _ => none

/-- The operands of a line: for WRITE_STR a string literal and nothing else (R77), for every other mnemonic none or a
comma-separated list (R69). Assumption 20. -/
def asmOperands (mnemonic cs : List Char) : Option (List Int) :=
  if mnemonic = "WRITE_STR".toList then asmString cs
  else if cs = [] then some []
  else (asmSplit [] cs).mapM fun t => asmInt (asmTrim t)

/-- A line of assembler as text: the mnemonic, then its operands (R69). -/
def assembleLine (line : List Char) : Option (List Instr) :=
  let cs := asmTrim line
  let mnemonic := cs.takeWhile (· != ' ')
  (asmOperands mnemonic (asmTrim (cs.dropWhile (· != ' ')))).bind (assemble (String.ofList mnemonic))

/-- The request words of a list of requests (R66: in order). -/
def program (is : List Instr) : List Word := is.flatMap encode

end Sys2Proof.Machine
end

