-- ==== Sys2Proof/Machine/TableImage.lean ====
section
/-!
DEFINITION. The optional packed init-table image (spec/40_command_sequencer.md R88). The block itself reads the typed form (R87).
-/

namespace Sys2Proof.Machine

/-- A delay with a packed form is none or 0..255 (R88). -/
def packableDelay : Option Word → Bool
  | none => true
  | some d => decide (d.toNat ≤ 255)

/-- A typed step has a packed form exactly when this holds (R88). -/
def packable (st : CmdStep) : Bool := decide (st.args.length ≤ 127) && packableDelay st.delay

/-- Byte `k` (R88): bit 7 the delay-present flag, bits 6:0 the argument count. -/
def packFlags (st : CmdStep) : Byte := BitVec.ofNat 8 (st.args.length + if st.delay.isSome then 128 else 0)

/-- The packed form of one step (R88). -/
def packStep (st : CmdStep) : List Byte :=
  st.opcode :: packFlags st :: st.args ++ (st.delay.map (fun d => d.setWidth 8)).toList

/-- The image of a table with at most 255 packable steps (R88); `none` where there is none. -/
def packTable (t : List CmdStep) : Option (List Byte) :=
  if t.length ≤ 255 ∧ t.all packable then some (BitVec.ofNat 8 t.length :: t.flatMap packStep) else none

/-- The delay byte of a step, if its flag is set, and the bytes after it. -/
def unpackDelay (present : Bool) (bs : List Byte) : Option (Option Word × List Byte) :=
  if present then
    match bs with
    | d :: rest => some (some (d.setWidth 16), rest)
    | [] => none
  else some (none, bs)

/-- One step read from its packed form (R88), and the bytes after it. -/
def unpackStep : List Byte → Option (CmdStep × List Byte)
  | op :: k :: bs =>
    let n := (k.setWidth 7).toNat
    if bs.length < n then none
    else (unpackDelay (k.getLsbD 7) (bs.drop n)).map (fun p => (⟨op, bs.take n, p.1⟩, p.2))
  | _ => none

/-- `n` steps read from their packed form, and the bytes after them. -/
def unpackSteps : Nat → List Byte → Option (List CmdStep × List Byte)
  | 0, bs => some ([], bs)
  | n + 1, bs => (unpackStep bs).bind fun p => (unpackSteps n p.2).map fun q => (p.1 :: q.1, q.2)

/-- A table read from its image (R88); bytes after the last step are not accepted. -/
def unpackTable : List Byte → Option (List CmdStep)
  | [] => none
  | n :: bs => (unpackSteps n.toNat bs).bind fun p => if p.2 = [] then some p.1 else none

end Sys2Proof.Machine
end

