-- ==== Sys2Proof/Machine/Controller.lean ====
section
/-!
DEFINITION. The reference controller (spec/20_memory.md R45 to R47, non-normative): what a trace writes into the display
controller. The block never reads it (R44), so it is a function of the trace and no part of State. Also the order of a word's
bytes on the serial bus (R48).
-/

namespace Sys2Proof.Machine

/-- What a controller pixel word does: the logical pixel it lands on, or `none` where the spec leaves the place unspecified
(R46, R47), and the colour. -/
structure PixelWrite where
  place : Option (Int × Int)
  colour : Word
  deriving DecidableEq, Repr

/-- The reference controller (R45). -/
structure Controller where
  /-- Column range `cs..ce`. -/
  cs : Word
  ce : Word
  /-- Row range `rs..re`. -/
  rs : Word
  re : Word
  /-- The write pointer `(c, r)`. -/
  ptrC : Nat
  ptrR : Nat
  writing : Bool
  /-- The last memory-access-control value received. -/
  mad : Byte
  /-- The inversion flag. -/
  inv : Bool
  /-- The command whose arguments are being collected, and how many D16 words and D8 bytes it has had. -/
  op : Option Byte
  words : Nat
  bytes : Nat
  /-- The pixel words received, oldest first: the frame map as the list of its updates. -/
  writes : List PixelWrite
  deriving DecidableEq, Repr

/-- What the mapping of R46 depends on: the parameters, and `S.madctl` and the offsets at the request boundary where the trace
starts. -/
structure Mapping where
  cfg : Config
  base : Byte
  colOffset : Byte
  rowOffset : Byte
  deriving DecidableEq, Repr

/-- The mapping for a trace that starts at this state. -/
def Mapping.of (s : State) : Mapping := ⟨s.cfg, s.ds.madctl, s.ds.colOffset, s.ds.rowOffset⟩

/-- The logical pixel the word at the pointer lands on (R46); past the last row it is unspecified (R47). -/
def Controller.landing (m : Mapping) (k : Controller) : Option (Int × Int) :=
  if k.ptrR > k.re.toNat then none
  else if k.mad = m.base then
    some ((k.ptrC : Int) - (m.colOffset.toNat : Int), (k.ptrR : Int) - (m.rowOffset.toNat : Int))
  else if k.mad = m.base ^^^ m.cfg.glyphToggle then
    some ((k.ptrR : Int) - (m.colOffset.toNat : Int), (k.ptrC : Int) - (m.rowOffset.toNat : Int))
  else none

/-- The pointer advances, the column running fastest (R45). -/
def Controller.advance (k : Controller) : Controller :=
  if k.ptrC + 1 > k.ce.toNat then { k with ptrC := k.cs.toNat, ptrR := k.ptrR + 1 } else { k with ptrC := k.ptrC + 1 }

/-- A pixel word while `writing` (R45). -/
def Controller.pixelWord (m : Mapping) (k : Controller) (p : Word) : Controller :=
  { k with writes := k.writes ++ [(⟨k.landing m, p⟩ : PixelWrite)] }.advance

/-- `CMD op` (R45). An opcode that is several of R7's parameters at once acts as the first of RAMWR, INVON and INVOFF that it is:
DESIGN CHOICE, assumption 31. -/
def Controller.command (cfg : Config) (k : Controller) (b : Byte) : Controller :=
  let k := { k with writing := false, op := some b, words := 0, bytes := 0 }
  if b = cfg.opRamwr then { k with writing := true, ptrC := k.cs.toNat, ptrR := k.rs.toNat }
  else if b = cfg.opInvon then { k with inv := true }
  else if b = cfg.opInvoff then { k with inv := false }
  else k

/-- A D16 argument of the last command (R45): the first two words of a range command set its range. An opcode that is CASET and
RASET at once acts as CASET: DESIGN CHOICE, assumption 31. Any other word, after MADCTL too, changes nothing: DESIGN CHOICE,
assumption 34. -/
def Controller.wordArg (cfg : Config) (k : Controller) (w : Word) : Controller :=
  let k' := { k with words := k.words + 1 }
  if k.op = some cfg.opCaset then
    if k.words = 0 then { k' with cs := w } else if k.words = 1 then { k' with ce := w } else k'
  else if k.op = some cfg.opRaset then
    if k.words = 0 then { k' with rs := w } else if k.words = 1 then { k' with re := w } else k'
  else k'

/-- A D8 argument of the last command (R45): the first byte after MADCTL sets `mad`. R45 does not say what a byte after CASET or
RASET does; it leaves the ranges as they are: DESIGN CHOICE, assumption 34. -/
def Controller.byteArg (cfg : Config) (k : Controller) (b : Byte) : Controller :=
  let k' := { k with bytes := k.bytes + 1 }
  if k.op = some cfg.opMadctl ∧ k.bytes = 0 then { k' with mad := b } else k'

/-- One bus event (R45). R45 gives SEL and DESEL no effect and does not speak of DRAIN and SLEEP; they have none either: DESIGN
CHOICE, assumption 32. The pixel word of a D8 while `writing` is its byte with eight zero bits above: DESIGN CHOICE,
assumption 19. -/
def Controller.consume (m : Mapping) (k : Controller) : BusEvent → Controller
  | .sel | .desel | .drain | .sleep _ => k
  | .cmd b => k.command m.cfg b
  | .d8 b => if k.writing then k.pixelWord m (b.setWidth 16) else k.byteArg m.cfg b
  | .d16 w => if k.writing then k.pixelWord m w else k.wordArg m.cfg w

/-- A trace, one event at a time (R45). -/
def Controller.run (m : Mapping) (k : Controller) (evs : List BusEvent) : Controller := evs.foldl (Controller.consume m) k

/-- A controller whose access-control value is `mad` and that has received no pixel word; every other field is the caller's
(U7: any value). -/
def Controller.holding (mad : Byte) (k : Controller) : Controller := { k with mad := mad, writes := [] }

/-- Where the `n`-th pixel word lands: its place, or, where the spec leaves it unspecified (R46, R47), the place the free value
says. Assumption 30. -/
def PixelWrite.landsAt (n : Nat) (p : PixelWrite) : Option (Int × Int) :=
  match p.place with
  | some q => some q
  | none => Config.strayPlace n

/-- The frame map: the colour of the last word that landed on a logical pixel (R45); `none` where none of the trace has, since
what the pixel held before the trace is any value (U7). -/
def Controller.frameAt (k : Controller) (x y : Int) : Option Word :=
  (k.writes.zipIdx.reverse.find? (fun p => p.1.landsAt p.2 == some (x, y))).map (·.1.colour)

/-- The pixel words a request's events write, from a controller whose access-control value is `S.madctl` (R257). -/
def writesOf (s : State) (k : Controller) (evs : List BusEvent) : List PixelWrite :=
  ((k.holding s.ds.madctl).run (Mapping.of s) evs).writes

/-- The pixel words a list of critical sections writes. -/
def pixelsOf (s : State) (k : Controller) (cs : List Critical) : List PixelWrite := writesOf s k (eventsOf cs)

/-- The bytes an event puts on the serial bus, a 16-bit word high byte first (R48). -/
def BusEvent.wireBytes : BusEvent → List Byte
  | .cmd b => [b]
  | .d8 b => [b]
  | .d16 w => [w.extractLsb' 8 8, w.extractLsb' 0 8]
  | .sel | .desel | .drain | .sleep _ => []

end Sys2Proof.Machine
end

