-- ==== Sys2Proof/Machine/HostInterface.lean ====
section
/-!
DEFINITION. What the host and the platform can do to the block between two steps and inside a request
(spec/70_reset_and_hazards.md R264). The transport's answers and the bytes another agent changes during a BITMAP are State fields
the step reads.
-/

namespace Sys2Proof.Machine

/-- The host issues request words (R264): they arrive behind those already waiting. -/
def hostIssue (ws : List Word) (s : State) : State := { s with chan := s.chan ++ ws }

/-- The host reads `S.status` between two steps (R23, R264), without a request. Inside a request: `hostReadStatusDuring`. -/
def hostReadStatus (s : State) : Word := s.statusWord

/-- The host reads `S.resp` between two steps (R23, R264). Inside a request: `hostReadRespDuring`. -/
def hostReadResp (s : State) : Word := s.resp

/-! ## The host's reads inside a request -/

/-- A moment inside a request (R21, R226): its words are accepted, and `BUSY` is still 1. Assumption 35. -/
inductive Moment where
  /-- `k` bus events of the request have been sent; its commit, or its exception's fault bit, is still to come. -/
  | sent (k : Nat)
  /-- The commit is made or the fault bit is set, after the last bus event, and `BUSY` is not yet cleared. -/
  | ending
  deriving DecidableEq, Repr

/-- The status and the response, as the block holds them at one moment (R23). -/
structure HostRegisters where
  status : Word
  resp : Word
  deriving DecidableEq, Repr

/-- The status and the response of a state. -/
def State.hostRegisters (s : State) : HostRegisters where
  status := s.statusWord
  resp := s.resp

/-- What the next step comes to where it performs a request, a legal or an illegal one (R66, R221); none where the block is held,
is idle, or waits for operand words: there `hostReadStatus` and `hostReadResp` read it. -/
def requestStep (s : State) : Option State :=
  match s.accepting, decode s.waiting, step s with
  | true, .ok _ _, .next t => some t
  | true, .illegal _ _, .next t => some t
  | _, _, _ => none

/-- The status and the response inside the request the next step performs, if it has that moment: an event count within what it
sends, and an ending only where it ends (R223). Before the commit they are the old ones but for `BUSY` (R66, R226); at the ending
they are the new ones, `BUSY` still 1 (R221, R222, R226). Assumption 35. -/
def registersDuring (m : Moment) (s : State) : Option HostRegisters :=
  match requestStep s, m with
  | some t, .sent k => if s.trace.length + k ≤ t.trace.length then some s.setBusy.hostRegisters else none
  | some t, .ending => if t.busy then none else some t.setBusy.hostRegisters
  | none, _ => none

/-- The host reads `S.status` inside the next request (R23, R264: "at any time"). -/
def hostReadStatusDuring (m : Moment) (s : State) : Option Word := (registersDuring m s).map (·.status)

/-- The host's `n`-th read of `S.resp` inside the next request, `BUSY = 1` (R23, U14): the old response, or, at the commit, the old
or the new one, whichever the free value says. Assumption 35. -/
def hostReadRespDuring (m : Moment) (n : Nat) (s : State) : Option Word :=
  (registersDuring m s).map fun r => if Config.respTakesNew n then r.resp else s.resp

/-! ## Reset and the end of a run -/

/-- The host provides a bitmap byte between requests (R264). -/
def hostProvideByte (a : Nat) (b : Byte) (s : State) : State :=
  { s with bitmap := Memory.write (bitmapAddr s a) b s.bitmap }

/-- The reset input (R250, R251): every piece of the block's state takes its reset value, and a head word in flight is lost.
What is outside the block stays: its parameters, the bitmap bytes and their changes, the transport's answers, and the bus
events already sent. Assumption 23. -/
def platformReset (s : State) : State :=
  { State.resetWith s.cfg with
    bitmap := s.bitmap
    bitmapRace := s.bitmapRace
    raceReads := s.raceReads
    transport := s.transport
    trace := s.trace }

/-- The reset input inside the next request, after `k` of its bus events (R251): the request is abandoned, nothing of it is
committed, and the transport sees no further event of it. Assumption 25. -/
def platformResetDuring (k : Nat) (s : State) : State :=
  match step s with
  | .next t => { platformReset t with trace := t.trace.take (s.trace.length + k) }
  | .fault _ => platformReset s
  | .refused _ => platformReset s

/-- The end of a run (R265): a request boundary at which no word the host has issued waits. -/
def State.runEnded (s : State) : Bool := s.chan.isEmpty && !s.busy && !s.owned && s.held.isNone

end Sys2Proof.Machine
end

