-- ==== Sys2Proof/Safety.lean ====
section
/-!
DEFINITION. The terms claims are stated in: what counts as a faulted run (spec/60_exceptions.md R228), a transport that
answers (spec/70_reset_and_hazards.md R265), the bus protocol (spec/30_encoding.md R72), the last access-control value sent
(spec/10_state.md R30), and the invariants of the block (spec/10_state.md R21 to R31).
-/

namespace Sys2Proof.Machine

/-- The state records a fault (R228). -/
def State.faulted (s : State) : Bool := s.illegal || s.tfault

/-- The block is at a request boundary (R21): it holds no partial request and is not held. -/
def State.atBoundary (s : State) : Bool := s.latched.isEmpty && s.held.isNone

/-- Bits 15:3 of the status register are 0 (R23). -/
abbrev State.StatusOk (s : State) : Prop := s.status &&& statusMask = s.status

/-- `BUSY` is 1 exactly inside a request (R23, R66). -/
abbrev State.BusyOk (s : State) : Prop := s.busy = !s.atBoundary

/-- The block owns the bus only while it is held inside a critical section (R25). -/
abbrev State.OwnedOk (s : State) : Prop := s.owned = s.held.isSome

/-- The hidden working state is discarded outside a critical section (R26, R28, R226). -/
abbrev State.HiddenOk (s : State) : Prop := s.held = none → s.pendMad = none ∧ s.window = none

/-- The logical size invariant (R29). -/
abbrev State.SizeOk (s : State) : Prop :=
  s.ds.width = logicalWidth s.cfg s.ds.rotation ∧ s.ds.height = logicalHeight s.cfg s.ds.rotation

/-- The text-scale invariant (R31). -/
abbrev State.ScaleOk (s : State) : Prop := s.ds.textScale ≠ 0

/-- The latched words are the start of a legal request whose operand words have not all arrived (R66). -/
abbrev State.LatchOk (s : State) : Prop := s.latched ≠ [] → decode s.latched = .needOperands

/-- A block that is held has no latched words: the request it is held in has been consumed whole (R66). -/
abbrev State.HoldOk (s : State) : Prop := s.held ≠ none → s.latched = []

/-- The bitmap memory is in canonical form. -/
abbrev State.MemoryOk (s : State) : Prop := Memory.wf s.bitmap = true

/-- The invariant of the block's own registers and hidden state. -/
abbrev State.ControlInv (s : State) : Prop :=
  s.StatusOk ∧ s.BusyOk ∧ s.OwnedOk ∧ s.HiddenOk ∧ s.LatchOk ∧ s.HoldOk

/-- The invariant of the display registers (R29, R31). -/
abbrev State.DisplayInv (s : State) : Prop := s.SizeOk ∧ s.ScaleOk

/-! ## A transport that answers -/

/-- The transport answers every DRAIN and SLEEP `done` (R265). -/
abbrev State.TransportAnswers (s : State) : Prop := ∀ a ∈ s.transport, a = Answer.done

/-- How many events of a trace hold the block until the transport answers (R71). -/
def awaitCount (evs : List BusEvent) : Nat :=
  evs.countP (fun ev => match ev with
    | .drain => true
    | .sleep _ => true
    | .sel | .desel | .cmd _ | .d8 _ | .d16 _ => false)

/-- The state after a request that emitted `evs`, had every await answered and wrote no register: ended (R66, R226). -/
def State.afterBus (s : State) (evs : List BusEvent) : State :=
  { s.clearBusy with
    pendMad := none
    window := none
    owned := s.owned && evs.isEmpty
    trace := s.trace ++ evs
    transport := s.transport.drop (awaitCount evs) }

/-- The state after a request that emitted no bus event and wrote no register: ended (R66, R226). -/
def State.afterRegs (s : State) : State := { s with status := s.status &&& 0x0006, pendMad := none, window := none }

/-- The state whose transport answers everything. -/
def State.answered (s : State) : State := { s with transport := [] }

/-- The answers to the first `n` held events are all `done`. -/
abbrev State.AnswersFor (s : State) (n : Nat) : Prop := ∀ a ∈ s.transport.take n, a = Answer.done

/-- The answers to the first `n` held events are `done`, and the next one is `silent`. -/
abbrev State.SilentAt (s : State) (n : Nat) : Prop :=
  s.transport.take n = List.replicate n .done ∧ s.transport[n]? = some .silent

/-! ## The head words -/

/-- A head word outside the opcode map (R67), by the numbers of its `OPC` and `SUB` fields. -/
abbrev ReservedHead (w0 : Word) : Prop :=
  let opc := w0.toNat / 256
  let sub := w0.toNat % 256
  (opc ∈ [0x00, 0x04, 0x06, 0x07, 0x08, 0x09] ∧ sub ≠ 0)
  ∨ (opc = 0x01 ∧ 4 ≤ sub) ∨ (opc = 0x02 ∧ 5 ≤ sub) ∨ (opc = 0x05 ∧ 2 ≤ sub) ∨ (0x0A ≤ opc ∧ opc ≤ 0x0F)
  ∨ (0x10 ≤ opc ∧ opc ≤ 0x15 ∧ sub ≠ 0) ∨ opc = 0x16 ∨ opc = 0x17
  ∨ (opc ∈ [0x18, 0x1A, 0x1C, 0x1D] ∧ sub ≠ 0) ∨ (opc = 0x19 ∧ 16 ≤ sub) ∨ (opc = 0x1B ∧ 4 ≤ sub) ∨ opc = 0x1E ∨ opc = 0x1F
  ∨ (0x20 ≤ opc ∧ opc ≤ 0x22 ∧ sub ≠ 0) ∨ (0x23 ≤ opc ∧ opc ≤ 0x27)
  ∨ (opc = 0x28 ∧ 2 ≤ sub) ∨ (opc ∈ [0x2A, 0x2B] ∧ sub ≠ 0) ∨ (opc = 0x2D ∧ 2 ≤ sub) ∨ 0x2E ≤ opc

/-- The block is idle at a request boundary (R21, R66). -/
abbrev State.Idle (s : State) : Prop := s.busy = false ∧ s.latched = [] ∧ s.held = none

/-! ## The events of the micro-operations, as the spec lists them -/

/-- The events of `CS(op, args, delay)` (R80, R81), all awaits answered. -/
def commandEvents (op : Byte) (args : List Byte) (delay : Option Word) : List BusEvent :=
  [.sel, .cmd op] ++ args.map .d8
    ++ (match delay with
        | none => []
        | some d => [.sleep (if d = 255 then 500 else d)])
    ++ [.drain, .desel]

/-- The events of `WB(x0, y0, x1, y1, words)` (R100), its await answered. -/
def burstEvents (s : State) (x0 y0 x1 y1 : Int) (words : List Word) : List BusEvent :=
  [.sel,
   .cmd s.cfg.opCaset, .d16 (u16 (x0 + (s.ds.colOffset.toNat : Int))), .d16 (u16 (x1 + (s.ds.colOffset.toNat : Int))),
   .cmd s.cfg.opRaset, .d16 (u16 (y0 + (s.ds.rowOffset.toNat : Int))), .d16 (u16 (y1 + (s.ds.rowOffset.toNat : Int))),
   .cmd s.cfg.opRamwr]
  ++ words.map .d16 ++ [.drain, .desel]

/-- The events of PIXEL (R120) for a pixel word: none off-screen. -/
def pixelEvents (s : State) (x y : Int) (w : Word) : List BusEvent :=
  if 0 ≤ x ∧ x < (s.ds.width.toNat : Int) ∧ 0 ≤ y ∧ y < (s.ds.height.toNat : Int) then burstEvents s x y x y [w] else []

/-- The events of SOLID (R102, R103) for a pixel word: one burst over the on-screen part of the rectangle, as many words as it
covers; none for a non-positive extent or a rectangle off-screen. -/
def solidEvents (s : State) (x y w h : Int) (c : Word) : List BusEvent :=
  let xl := max x 0
  let xh := min (x + w - 1) ((s.ds.width.toNat : Int) - 1)
  let yl := max y 0
  let yh := min (y + h - 1) ((s.ds.height.toNat : Int) - 1)
  if 0 < w ∧ 0 < h ∧ xl ≤ xh ∧ yl ≤ yh then
    burstEvents s xl yl xh yh (List.replicate ((xh - xl + 1) * (yh - yl + 1)).toNat c)
  else []

/-- The pixel word of HLINE and VLINE (R107, `hv = 1`). -/
def hvWord (s : State) (c : Word) : Word := if s.ds.colorSwap = true then swap565 c else c

/-- The pixel word of every other operation (R107, `hv = 0`). -/
def plainWord (s : State) (c : Word) : Word := if s.ds.colorSwap = true ∧ s.cfg.swapScope = .all then swap565 c else c

/-- Column `i` of the cell of a code (R180): the font's column, and 0 for the spacer. -/
def glyphColumn (s : State) (code : Byte) (i : Nat) : Byte := (s.cfg.font.get ⟨code.toNat, code.isLt⟩).toList.getD i 0

/-- Pixel `n` of a cell in column-major order (R182): bit `n mod 8` of column `n div 8`. -/
def glyphBit (s : State) (code : Byte) (n : Nat) : Bool := (glyphColumn s code (n / 8)).getLsbD (n % 8)

/-- The events of GLYPH_FAST (R182), its await answered. -/
def fastEvents (s : State) (x y : Int) (fg bg : Word) (code : Byte) : List BusEvent :=
  [.sel, .cmd s.cfg.opMadctl, .d8 (s.ds.madctl ^^^ s.cfg.glyphToggle),
   .cmd s.cfg.opCaset, .d16 (u16 (y + (s.ds.rowOffset.toNat : Int))), .d16 (u16 (y + 7 + (s.ds.rowOffset.toNat : Int))),
   .cmd s.cfg.opRaset, .d16 (u16 (x + (s.ds.colOffset.toNat : Int))), .d16 (u16 (x + 5 + (s.ds.colOffset.toNat : Int))),
   .cmd s.cfg.opRamwr]
  ++ (List.range 48).map (fun (n : Nat) => .d16 (plainWord s (if glyphBit s code n then fg else bg)))
  ++ [.cmd s.cfg.opMadctl, .d8 s.ds.madctl, .drain, .desel]

/-- The events of `DOT` (R183) at scale `sc`. -/
def dotEvents (s : State) (x y : Int) (i j : Nat) (sc : Nat) (c : Word) : List BusEvent :=
  if sc = 1 then pixelEvents s (x + (i : Int)) (y + (j : Int)) (plainWord s c)
  else solidEvents s (x + (i : Int) * (sc : Int)) (y + (j : Int) * (sc : Int)) (sc : Int) (sc : Int) (plainWord s c)

/-- The events of GLYPH_GENERAL (R183), all awaits answered. -/
def generalEvents (s : State) (x y : Int) (fg bg : Word) (sc : Nat) (code : Byte) : List BusEvent :=
  (List.range 48).flatMap fun (n : Nat) =>
    if glyphBit s code n then dotEvents s x y (n / 8) (n % 8) sc fg
    else if bg ≠ fg then dotEvents s x y (n / 8) (n % 8) sc bg
    else []

/-- The events of the body of DRAW_CHAR (R180, R181), all awaits answered. -/
def charEvents (s : State) (x y : Int) (fg bg : Word) (sraw code : Byte) (g : Bool) : List BusEvent :=
  let sc := if sraw = 0 then 1 else sraw.toNat
  if sc = 1 ∧ bg ≠ fg ∧ g = false ∧ 0 ≤ x ∧ x + 5 < (s.ds.width.toNat : Int) ∧ 0 ≤ y ∧ y + 7 < (s.ds.height.toNat : Int) then
    fastEvents s x y fg bg code
  else generalEvents s x y fg bg sc code

/-- Whether a pixel is on the logical screen (R18). -/
abbrev State.OnScreen (s : State) (p : Int × Int) : Prop :=
  0 ≤ p.1 ∧ p.1 < (s.ds.width.toNat : Int) ∧ 0 ≤ p.2 ∧ p.2 < (s.ds.height.toNat : Int)

/-- The pixel writes of a list of logical pixels in one colour, the off-screen ones dropped. -/
def State.drawnPixels (s : State) (ps : List (Int × Int)) (w : Word) : List PixelWrite :=
  (ps.filter (fun p => decide (s.OnScreen p))).map (fun p => ⟨some p, w⟩)

/-- The pixels of a rectangle, row by row. -/
def rectPixels (x y w h : Int) : List (Int × Int) :=
  (intRange y (y + h - 1)).flatMap fun v => (intRange x (x + w - 1)).map fun u => (u, v)

/-- The logical pixels of a line's points (R126). -/
def LinePixels.logical (p : LinePixels) : List (Int × Int) := p.pts.map (fun q => if p.steep then (q.2, q.1) else q)

/-- The window burst of one run of a line (R127): the window is the remaining strip, clamped to the screen. -/
def runEvents (s : State) (steep : Bool) (xEnd : Int) (r : Run) (w : Word) : List BusEvent :=
  let majLim : Int := if steep then s.ds.height.toNat else s.ds.width.toNat
  let minLim : Int := if steep then s.ds.width.toNat else s.ds.height.toNat
  let a := max r.a 0
  let b := min r.b (majLim - 1)
  let e := min xEnd (majLim - 1)
  if 0 ≤ r.m ∧ r.m < minLim ∧ a ≤ b then
    if steep then burstEvents s r.m a r.m e (List.replicate (b - a + 1).toNat w)
    else burstEvents s a r.m e r.m (List.replicate (b - a + 1).toNat w)
  else []

/-- The column where the edge from `p` to `q` crosses scanline `y` (R162): truncating division from the edge's top vertex. -/
def crossing (p q : Vertex) (y : Int) : Int := p.x + ((y - p.y) * (q.x - p.x)).tdiv (q.y - p.y)

/-- The column of the short edges 0-1 and 1-2 on scanline `y` (R161, R162). -/
def shortEdge (p0 p1 p2 : Vertex) (y : Int) : Int :=
  if y < p1.y ∨ p1.y = p2.y then crossing p0 p1 y else crossing p1 p2 y

/-- The pixels CIRCLE draws, in order (R141): four axis points, then eight reflections a midpoint step. -/
def circlePixels (x0 y0 r : Int) : List (Int × Int) :=
  [(x0, y0 + r), (x0, y0 - r), (x0 + r, y0), (x0 - r, y0)]
  ++ (midpointSteps r).flatMap fun p =>
    [(x0 + p.1, y0 + p.2), (x0 - p.1, y0 + p.2), (x0 + p.1, y0 - p.2), (x0 - p.1, y0 - p.2),
     (x0 + p.2, y0 + p.1), (x0 - p.2, y0 + p.1), (x0 + p.2, y0 - p.1), (x0 - p.2, y0 - p.1)]

/-- The pixels CIRCLE_HELPER draws, in order, for a mask (R142, R147): 1 upper-left, 2 upper-right, 4 lower-right, 8
lower-left. -/
def helperPixels (m : Nat) (x0 y0 r : Int) : List (Int × Int) :=
  (if m &&& 0xC ≠ 0 then [(x0, y0 + r)] else []) ++ (if m &&& 0x3 ≠ 0 then [(x0, y0 - r)] else [])
  ++ (if m &&& 0x6 ≠ 0 then [(x0 + r, y0)] else []) ++ (if m &&& 0x9 ≠ 0 then [(x0 - r, y0)] else [])
  ++ (midpointSteps r).flatMap fun p =>
    (if m &&& 4 ≠ 0 then [(x0 + p.1, y0 + p.2), (x0 + p.2, y0 + p.1)] else [])
    ++ (if m &&& 2 ≠ 0 then [(x0 + p.1, y0 - p.2), (x0 + p.2, y0 - p.1)] else [])
    ++ (if m &&& 8 ≠ 0 then [(x0 - p.2, y0 + p.1), (x0 - p.1, y0 + p.2)] else [])
    ++ (if m &&& 1 ≠ 0 then [(x0 - p.2, y0 - p.1), (x0 - p.1, y0 - p.2)] else [])

/-- The spans FILL_CIRCLE_HELPER draws, in order, as column, top row and height, for a mask (R144): 1 right, 2 left. -/
def helperSpans (m : Nat) (x0 y0 r extra : Int) : List (Int × Int × Int) :=
  (midpointSteps r).flatMap fun p =>
    (if m &&& 1 ≠ 0 then
      [(x0 + p.1, y0 - p.2, 2 * p.2 + 1 + extra), (x0 + p.2, y0 - p.1, 2 * p.1 + 1 + extra)] else [])
    ++ (if m &&& 2 ≠ 0 then
      [(x0 - p.1, y0 - p.2, 2 * p.2 + 1 + extra), (x0 - p.2, y0 - p.1, 2 * p.1 + 1 + extra)] else [])

/-- The events of PIXELs at a list of points in one colour (R120). -/
def pixelsEvents (s : State) (ps : List (Int × Int)) (c : Word) : List BusEvent :=
  ps.flatMap fun p => pixelEvents s p.1 p.2 (plainWord s c)

/-- The events of VLINEs over a list of spans in one colour (R122). -/
def spansEvents (s : State) (ps : List (Int × Int × Int)) (c : Word) : List BusEvent :=
  ps.flatMap fun p => solidEvents s p.1 p.2.1 1 p.2.2 (hvWord s c)

/-- A request that draws by window bursts alone: every drawing request but the glyph fast path (R100, R181). -/
def drawsBursts : Instr → Bool
  | .pixel _ _ _ | .hline _ _ _ _ | .vline _ _ _ _ | .fillRect _ _ _ _ _ | .rect _ _ _ _ _ | .line _ _ _ _ _ => true
  | .circle _ _ _ _ | .circleHelper _ _ _ _ _ | .fillCircle _ _ _ _ | .fillCircleHelper _ _ _ _ _ _ => true
  | .roundRect _ _ _ _ _ _ | .fillRoundRect _ _ _ _ _ _ => true
  | .triangle _ _ _ _ _ _ _ | .fillTriangle _ _ _ _ _ _ _ | .bitmap _ _ _ _ _ _ => true
  | .drawChar g _ _ _ _ _ _ => g
  | .nop | .init _ | .runTable _ | .setRotation _ | .getRotation | .invert _ | .getWidth | .getHeight | .color565 _ _ _
  | .clearStatus | .writeChar _ | .setCursor _ _ | .setTextColor _ _ | .setTextScale _ | .setTextWrap _ => false

/-! ## What a drawing request's events are made of -/

/-- One window burst that meets the precondition of R100 (R101). -/
def State.IsBurst (s : State) (evs : List BusEvent) : Prop :=
  ∃ (x0 y0 x1 y1 : Int) (words : List Word),
    0 ≤ x0 ∧ x0 ≤ x1 ∧ x1 < (s.ds.width.toNat : Int) ∧ 0 ≤ y0 ∧ y0 ≤ y1 ∧ y1 < (s.ds.height.toNat : Int)
    ∧ words ≠ [] ∧ (words.length : Int) ≤ (x1 - x0 + 1) * (y1 - y0 + 1) ∧ evs = burstEvents s x0 y0 x1 y1 words

/-- One fast-path glyph cell, wholly on-screen (R181, R182). -/
def State.IsGlyph (s : State) (evs : List BusEvent) : Prop :=
  ∃ (x y : Int) (fg bg : Word) (code : Byte),
    0 ≤ x ∧ x + 5 < (s.ds.width.toNat : Int) ∧ 0 ≤ y ∧ y + 7 < (s.ds.height.toNat : Int) ∧ bg ≠ fg
    ∧ evs = fastEvents s x y fg bg code

/-! ## What the reference controller needs -/

/-- The opcodes the reference controller must tell apart (R7, R45). -/
abbrev OpcodesDistinct (c : Config) : Prop :=
  c.opCaset ≠ c.opRaset ∧ c.opCaset ≠ c.opRamwr ∧ c.opRaset ≠ c.opRamwr ∧ c.opMadctl ≠ c.opRamwr

/-- Every window coordinate of an on-screen window fits a 16-bit word (R11, D54). -/
abbrev State.WindowFits (s : State) : Prop :=
  max s.ds.width.toNat s.ds.height.toNat + max s.ds.colOffset.toNat s.ds.rowOffset.toNat ≤ 65536

/-! ## The bus protocol -/

/-- Where a trace stands (R72): between critical sections, just after a `SEL`, inside a section, after its `SLEEP`, after its
`DRAIN`. -/
inductive BusPhase where
  | idle
  | selected
  | inside
  | slept
  | drained
  deriving DecidableEq, Repr

/-- The protocol of R72, R80 and R256: `SEL`, a command, then commands and data, at most one `SLEEP`, then `DRAIN` immediately
before `DESEL`. -/
def BusPhase.next : BusPhase → BusEvent → Option BusPhase
  | .idle, .sel => some .selected
  | .selected, .cmd _ => some .inside
  | .inside, .cmd _ => some .inside
  | .inside, .d8 _ => some .inside
  | .inside, .d16 _ => some .inside
  | .inside, .sleep _ => some .slept
  | .inside, .drain => some .drained
  | .slept, .drain => some .drained
  | .drained, .desel => some .idle
  | _, _ => none

/-- Where a trace that keeps the protocol ends, from a phase; `none` if it breaks the protocol. -/
def BusPhase.run : BusPhase → List BusEvent → Option BusPhase
  | p, [] => some p
  | p, ev :: evs => (p.next ev).bind (fun q => BusPhase.run q evs)

/-- The phase a state's trace must end in: held at a DRAIN, held at a SLEEP, or at no event. -/
def State.phase (s : State) : BusPhase :=
  match s.held with
  | none => .idle
  | some .drain => .drained
  | some .sleep => .slept

/-- The whole trace keeps the bus protocol (R72). -/
abbrev State.TraceOk (s : State) : Prop := BusPhase.run .idle s.trace = some s.phase

/-! ## The last access-control value sent -/

/-- The last MADCTL argument of a trace (R30): the first byte after a MADCTL command. `last` is the value so far, `fresh` says
that the event before was a MADCTL command. -/
def lastMadctl (cfg : Config) : Byte → Bool → List BusEvent → Byte
  | last, _, [] => last
  | last, _, .cmd b :: evs => lastMadctl cfg last (decide (b = cfg.opMadctl)) evs
  | _, true, .d8 b :: evs => lastMadctl cfg b false evs
  | last, false, .d8 _ :: evs => lastMadctl cfg last false evs
  | last, fresh, .d16 _ :: evs => lastMadctl cfg last fresh evs
  | last, fresh, .sel :: evs => lastMadctl cfg last fresh evs
  | last, fresh, .desel :: evs => lastMadctl cfg last fresh evs
  | last, fresh, .drain :: evs => lastMadctl cfg last fresh evs
  | last, fresh, .sleep _ :: evs => lastMadctl cfg last fresh evs

/-- `S.madctl` is the last access-control value sent, and the reset value if none was (R30, R257). -/
abbrev State.MadctlCoherent (s : State) : Prop := s.ds.madctl = lastMadctl s.cfg 0x00 false s.trace

end Sys2Proof.Machine
end

