-- ==== Sys2Proof/Certificates/Slice0/Obligations.lean ====
section
/-!
DEFINITION. The statements about the model. Each docstring names the rules of spec/ it formalises. A statement about a request
that uses the bus has the premise that the transport answers (R265); what happens otherwise is `TimeoutEndsTheRequest` and
`UnansweredAwaitHoldsTheBlock`, for every request at once.
-/

open Sys2Proof Sys2Proof.Machine

/-! ## Encoding -/

/-- Words written out from the opcode map (R61, R62, R65) and the vectors V-ENC of 95_test_vectors.md. -/
def Obligations.DecodesWrittenWords : Prop :=
  decode [0x0000] = .ok .nop [] ∧ decode [0x0101] = .ok (.init 1) [] ∧ decode [0x0203] = .ok (.runTable 3) []
  ∧ decode [0x03FF, 7] = .ok (.setRotation 255) [7]
  ∧ decode [0x1300, 3, 4, 5, 2, 0x1234] = .ok (.fillRect 3 4 5 2 0x1234) []
  ∧ decode [0x1500, 0xFFFE, 0, 3, 0, 1] = .ok (.line (-2) 0 3 0 1) []
  ∧ decode [0x190F, 10, 10, 3, 0xF800] = .ok (.circleHelper 15 10 10 3 0xF800) []
  ∧ decode [0x2200, 4, 4, 8, 2, 0x001F, 0x1000, 0x0002] = .ok (.bitmap 4 4 8 2 0x001F 0x00021000) []
  ∧ decode [0x2800, 10, 20, 0xFFFF, 0, 0x0141] = .ok (.drawChar false 10 20 0xFFFF 0 1 0x41) []
  ∧ decode [0x2941] = .ok (.writeChar 0x41) []

/-- Decoding an encoded request gives it back, every operand at every value, and leaves the words behind it (R60 to R65). -/
def Obligations.DecodeEncodeRoundTrip : Prop :=
  ∀ (i : Instr) (rest : List Word), i.WellFormed → decode (encode i ++ rest) = .ok i rest

/-- What the decoder accepts is a well-formed request, and it takes exactly that request's words (R60, R66): those of its
encoding, but for the byte of COLOR565's second operand word that is ignored (R62). -/
def Obligations.DecodeTakesExactlyOneRequest : Prop :=
  ∀ (ws rest : List Word) (i : Instr), decode ws = .ok i rest →
    i.WellFormed ∧ ∃ used, ws = used ++ rest ∧ used.length = (encode i).length ∧ 1 ≤ used.length ∧ used.length ≤ 8
      ∧ (match i with
         | .color565 r g b => ∃ ignored : Byte, used = [0x0800, ofBytes r g, ofBytes ignored b]
         | _ => used = encode i)

/-- The illegal head words are exactly the reserved encodings of R67, and only the head word is consumed (R66). -/
def Obligations.IllegalHeadsAreTheReservedOnes : Prop :=
  ∀ (w0 : Word) (ws : List Word), (∃ why rest, decode (w0 :: ws) = .illegal why rest ∧ rest = ws) ↔ ReservedHead w0

/-- The packed table image (R88): a table has an image exactly when every step has a packed form and there are at most 255
steps; the image reads back as the table, and it is the only one that does. That bytes behind the last step are not accepted is
the model's choice (log entry 26). -/
def Obligations.PackedTableRoundTrip : Prop :=
  ∀ (t : List CmdStep) (img : List Byte),
    ((packTable t).isSome = true
      ↔ t.length ≤ 255 ∧ ∀ st ∈ t, st.args.length ≤ 127 ∧ ∀ d, st.delay = some d → d.toNat ≤ 255)
    ∧ (packTable t = some img → unpackTable img = some t)
    ∧ (unpackTable img = some t → packTable t = some img)

/-! ## Steps -/

/-- A step runs the decoded request: accepted, `BUSY` set, its words consumed (R66). -/
def Obligations.StepRunsTheDecodedRequest : Prop :=
  ∀ (s : State) (i : Instr) (rest : List Word),
    s.held = none → (s.busy = false ∨ s.latched ≠ []) → decode (s.latched ++ s.chan) = .ok i rest →
      step s = exec i { s with status := (s.status ||| 0x0001) &&& 0x0007, latched := [], chan := rest }

/-- An idle block performs the first encoded request of its channel and is at a request boundary again, with the words behind
it still waiting (R21, R66, R260). -/
def Obligations.StepEndsAtARequestBoundary : Prop :=
  ∀ (s : State) (i : Instr) (rest : List Word),
    s.Idle → s.owned = false → s.TransportAnswers → i.WellFormed → s.chan = encode i ++ rest →
      ∃ t, step s = .next t ∧ t.Idle ∧ t.owned = false ∧ t.chan = rest ∧ t.pendMad = none ∧ t.window = none

/-- A head word whose operand words have not all arrived waits with `BUSY = 1`, and the request runs as if they had arrived
with it (R60, R66). That the block holds the words itself meanwhile is the model's choice (log entry 7). -/
def Obligations.OperandsMayArriveLater : Prop :=
  ∀ (s : State) (more : List Word),
    s.held = none → (s.busy = false ∨ s.latched ≠ []) → decode (s.latched ++ s.chan) = .needOperands →
      ∃ t, step s = .next t ∧ t.busy = true ∧ t.trace = s.trace ∧ t.ds = s.ds ∧ t.resp = s.resp
        ∧ step (hostIssue more t) = step (hostIssue more s)

/-- An idle block with no word waiting stays as it is (R21, R52; that a step stutters there is the model's choice, log entry 8);
a block held at an event that is never answered has no step (R223, U3; log entry 5). -/
def Obligations.IdleStaysAndHeldIsStuck : Prop :=
  ∀ s : State,
    (s.held = none → s.latched = [] → s.chan = [] → step s = .next s)
    ∧ (s.held = some .drain → step s = .fault .heldAtDrain)
    ∧ (s.held = some .sleep → step s = .fault .heldAtSleep)

/-- A step appends to the trace and changes no parameter, no font byte and no init table (R17, R42, R43, R54, R57). -/
def Obligations.StepOnlyAppendsToTheTrace : Prop :=
  ∀ s t : State, step s = .next t → (∃ evs, t.trace = s.trace ++ evs) ∧ t.cfg = s.cfg

/-! ## Reset -/

/-- Reset (R250): every piece of state holds its value, and no bus event has been emitted. -/
def Obligations.ResetLeavesTheStatedValues : Prop :=
  ∀ cfg : Config,
    let s := State.resetWith cfg
    s.ds.rotation = 0 ∧ s.ds.width = BitVec.ofNat 16 cfg.panelW ∧ s.ds.height = BitVec.ofNat 16 cfg.panelH ∧ s.ds.variant = 0
    ∧ s.ds.colOffset = 0 ∧ s.ds.rowOffset = 0 ∧ s.ds.colorSwap = false ∧ s.ds.madctl = 0x00
    ∧ s.ds.cursorX = 0 ∧ s.ds.cursorY = 0 ∧ s.ds.textColor = 0xFFFF ∧ s.ds.textBg = 0xFFFF ∧ s.ds.textScale = 1
    ∧ s.ds.wrap = true ∧ s.status = 0x0000 ∧ s.resp = 0x0000 ∧ s.owned = false ∧ s.pendMad = none ∧ s.chan = []
    ∧ s.Idle ∧ s.trace = [] ∧ s.cfg = cfg ∧ State.reset = State.resetWith Config.default

/-- A reset in any state, and inside any request after any number of its events, gives every register its reset value, loses the
words in flight and emits no bus event: what the display has seen is a first part of the request's events (R250, R251). That the
block's surroundings stay is the model's choice (log entries 23, 25). -/
def Obligations.ResetAbandonsTheRequest : Prop :=
  let isReset (s t : State) : Prop :=
    t.ds = (State.resetWith s.cfg).ds ∧ t.status = 0x0000 ∧ t.resp = 0x0000 ∧ t.owned = false ∧ t.pendMad = none
    ∧ t.chan = [] ∧ t.Idle ∧ t.ControlInv ∧ t.DisplayInv
  ∀ s : State,
    isReset s (platformReset s) ∧ (platformReset s).trace = s.trace
    ∧ ∀ k : Nat, isReset s (platformResetDuring k s)
      ∧ ∀ t : State, step s = .next t →
          s.trace <+: (platformResetDuring k s).trace ∧ (platformResetDuring k s).trace <+: t.trace
            ∧ (platformResetDuring k s).trace.length ≤ s.trace.length + k

/-- The invariants of the block hold after reset (R21, R23, R25, R28, R29, R31, R72, R30). -/
def Obligations.InvariantsHoldAtReset : Prop :=
  ∀ cfg : Config,
    let s := State.resetWith cfg
    s.ControlInv ∧ s.DisplayInv ∧ s.MemoryOk ∧ s.TraceOk ∧ s.MadctlCoherent

/-! ## Invariants that every step keeps -/

/-- Status bits 15:3 stay 0, `BUSY` says exactly that a request is in progress, the bus is owned only inside a critical section,
and the hidden state is discarded at a request's end (R21, R23, R25, R26, R28, R226). -/
def Obligations.StepKeepsTheControlInvariant : Prop :=
  ∀ s t : State, s.ControlInv → step s = .next t → t.ControlInv

/-- The logical size invariant (R29): it holds after reset, and every step keeps it. -/
def Obligations.StepKeepsTheLogicalSize : Prop :=
  let sized (s : State) : Prop :=
    (s.ds.rotation.toNat % 2 = 1 → s.ds.width.toNat = s.cfg.panelH ∧ s.ds.height.toNat = s.cfg.panelW)
    ∧ (s.ds.rotation.toNat % 2 = 0 → s.ds.width.toNat = s.cfg.panelW ∧ s.ds.height.toNat = s.cfg.panelH)
  (∀ cfg : Config, cfg.PanelOk → sized (State.resetWith cfg))
  ∧ ∀ s t : State, s.cfg.PanelOk → sized s → step s = .next t → sized t

/-- The text-scale invariant (R31): `S.textScale` is never 0; the reset value is 1, and SET_TEXT_SCALE maps 0 to 1. -/
def Obligations.TextScaleIsNeverZero : Prop :=
  (∀ cfg : Config, (State.resetWith cfg).ds.textScale = 1)
  ∧ (∀ s t : State, exec (.setTextScale 0) s = .next t → t.ds.textScale = 1)
  ∧ ∀ s t : State, s.ds.textScale ≠ 0 → step s = .next t → t.ds.textScale ≠ 0

/-- Every window coordinate stays within a 16-bit word (R11, D54). -/
def Obligations.StepKeepsWindowsWithinAWord : Prop :=
  ∀ s t : State, s.cfg.PanelOk → s.cfg.OffsetsOk → s.SizeOk → s.WindowFits → step s = .next t → t.WindowFits

/-- The bus protocol (R72, R55, R256): from reset on, the trace is a sequence of critical sections, each a `SEL`, a command,
more commands and data, at most one `SLEEP`, and a `DRAIN` immediately before the `DESEL`. -/
def Obligations.StepKeepsTheBusProtocol : Prop :=
  ∀ s t : State, s.TraceOk → step s = .next t → t.TraceOk

/-- The bitmap memory keeps its canonical form, whatever the block and the host do (R41, R50, R264). -/
def Obligations.StepKeepsTheMemoryForm : Prop :=
  (∀ s t : State, s.MemoryOk → step s = .next t → t.MemoryOk)
  ∧ ∀ (s : State) (a : Nat) (b : Byte), s.MemoryOk → (hostProvideByte a b s).MemoryOk

/-- `S.madctl` stays the last access-control value sent (R30, R84, R257), while the transport answers: the model's reading of R30's
premise (log entry 22). -/
def Obligations.StepKeepsMadctlCoherent : Prop :=
  ∀ s t : State, s.TransportAnswers → s.held = none → s.MadctlCoherent → step s = .next t →
    t.MadctlCoherent ∧ t.TransportAnswers ∧ t.held = none

/-! ## Exceptions -/

/-- IllegalRequest (R221, R67): a reserved head word is consumed alone, `ILLEGAL` is set, and nothing else changes. -/
def Obligations.IllegalRequestConsumesTheHeadWord : Prop :=
  ∀ (s : State) (w0 : Word) (ws : List Word),
    s.Idle → s.chan = w0 :: ws → ReservedHead w0 →
      step s = .next
        { s with chan := ws, status := (s.status ||| 0x0002) &&& 0x0006, pendMad := none, window := none }

/-- TransportFault (R222, R224, R226, R227): whatever the request, at the first DRAIN that is not answered under
`DRAIN_TIMEOUT = some n` the block emits `DESEL`, abandons the rest, sets `TFAULT`, commits nothing and ends the request. `u` is
the state the request ends in when every event is answered; `pre` are its events before that DRAIN. That a silent answer under a
timeout is the answer `timeout` is log entry 4; that a BITMAP's changed bytes have landed all the same is log entry 11. -/
def Obligations.TimeoutEndsTheRequest : Prop :=
  ∀ (i : Instr) (s u : State) (pre post : List BusEvent) (n : Nat),
    s.cfg.drainTimeout = some n → exec i s.answered = .next u → u.trace = s.trace ++ pre ++ [.drain] ++ post →
    s.SilentAt (awaitCount pre) →
      exec i s = .next
        { u with
          ds := s.ds
          resp := s.resp
          status := (s.status ||| 0x0004) &&& 0x0006
          owned := false
          trace := s.trace ++ pre ++ [.drain, .desel]
          transport := s.transport.drop (awaitCount pre + 1) }

/-- Drain hang and sleep hang (R223): whatever the request, at an event that is never answered the block holds with `BUSY = 1`,
no register written and nothing more emitted, and no step follows. That a silent answer is none is log entry 4; that a step of a
held block is a fault is log entry 5. -/
def Obligations.UnansweredAwaitHoldsTheBlock : Prop :=
  ∀ (i : Instr) (s u : State) (pre post : List BusEvent) (ev : BusEvent),
    exec i s.answered = .next u → u.trace = s.trace ++ pre ++ [ev] ++ post → s.SilentAt (awaitCount pre) →
    ((ev = .drain ∧ s.cfg.drainTimeout = none) ∨ ∃ ms, ev = .sleep ms) →
      ∃ t, exec i s = .next t ∧ t.trace = s.trace ++ pre ++ [ev] ∧ t.busy = true ∧ t.owned = true ∧ t.ds = s.ds
        ∧ t.resp = s.resp ∧ t.illegal = s.illegal ∧ t.tfault = s.tfault
        ∧ (ev = .drain → step t = .fault .heldAtDrain) ∧ ((∃ ms, ev = .sleep ms) → step t = .fault .heldAtSleep)

/-- Every request, in every state, comes to one of three ends (R71, R222, R223, R224, R226), by the answers to its own events `evs`
and to no later one: if they are all `done`, it is done as with a transport that answers; at the first silent one it is ended by
a TransportFault or held for ever. The answers that are silent are read as log entry 4 says, the held state is log entry 5. -/
def Obligations.EveryRequestComesToOneOfThreeEnds : Prop :=
  ∀ (i : Instr) (s : State), ∃ (t u : State) (evs : List BusEvent),
    exec i s = .next t ∧ exec i s.answered = .next u ∧ u.trace = s.trace ++ evs
    ∧ (s.AnswersFor (awaitCount evs) → t = { u with transport := s.transport.drop (awaitCount evs) })
    ∧ (s.AnswersFor (awaitCount evs)
      ∨ (s.cfg.drainTimeout ≠ none ∧ t.tfault = true ∧ t.busy = false ∧ t.owned = false ∧ t.ds = s.ds ∧ t.resp = s.resp
          ∧ ∃ pre post, evs = pre ++ [.drain, .desel] ++ post ∧ s.SilentAt (awaitCount pre)
            ∧ t.trace = s.trace ++ pre ++ [.drain, .desel])
      ∨ (t.held ≠ none ∧ t.busy = true ∧ t.owned = true ∧ t.ds = s.ds ∧ t.resp = s.resp
          ∧ ∃ pre ev post, evs = pre ++ [ev] ++ post ∧ s.SilentAt (awaitCount pre)
            ∧ ((ev = .drain ∧ s.cfg.drainTimeout = none) ∨ ∃ ms, ev = .sleep ms)
            ∧ t.trace = s.trace ++ pre ++ [ev]))

/-- The two fault bits are sticky, and nothing sets them but the two exceptions (R23, R220, R224, R228): a step that is not a
CLEAR_STATUS keeps a bit that is 1; `ILLEGAL` is set by an illegal head word only; `TFAULT` is set only by a request that ends, under
a timeout, at a DRAIN of its own whose answer is silent (log entry 4), all its answers before being `done`. -/
def Obligations.FaultBitsAreSticky : Prop :=
  ∀ s t : State, step s = .next t →
    ((∀ rest, decode (s.latched ++ s.chan) ≠ .ok .clearStatus rest) →
      (s.illegal = true → t.illegal = true) ∧ (s.tfault = true → t.tfault = true))
    ∧ (s.illegal = false → t.illegal = true → ∃ why rest, decode (s.latched ++ s.chan) = .illegal why rest)
    ∧ (s.tfault = false → t.tfault = true →
        s.cfg.drainTimeout ≠ none
        ∧ ∃ pre, t.trace = s.trace ++ pre ++ [.drain, .desel] ∧ s.SilentAt (awaitCount pre))

/-- What the host reads (R23, R264). Between two steps: bits 15:3 of the status are 0 whatever the state, and the response is the
register. Inside a request that a step performs, `BUSY` reads 1 (R66): as long as bus events are still to come, with the fault bits
and the response from before the request (R226); at its end, if it ends, with the fault bits it leaves (R221, R222, R207), and the
old or the new response (U14). At which moments a host can read is the model's choice (log entry 35). -/
def Obligations.HostReadsStatusAndResponse : Prop :=
  let isStatus (w : Word) (busy illegal tfault : Bool) : Prop :=
    w.toNat < 8 ∧ w.getLsbD 0 = busy ∧ w.getLsbD 1 = illegal ∧ w.getLsbD 2 = tfault
  ∀ s : State,
    isStatus (hostReadStatus s) s.busy s.illegal s.tfault ∧ hostReadResp s = s.resp
    ∧ ∀ t : State, s.accepting = true → step s = .next t →
        ((∃ i rest, decode (s.latched ++ s.chan) = .ok i rest) ∨ ∃ why rest, decode (s.latched ++ s.chan) = .illegal why rest) →
        (∀ k : Nat, s.trace.length + k ≤ t.trace.length →
          (∃ w, hostReadStatusDuring (.sent k) s = some w ∧ isStatus w true s.illegal s.tfault)
          ∧ ∀ n : Nat, hostReadRespDuring (.sent k) n s = some s.resp)
        ∧ (∀ k : Nat, t.trace.length < s.trace.length + k → hostReadStatusDuring (.sent k) s = none)
        ∧ (t.busy = false →
            (∃ w, hostReadStatusDuring .ending s = some w ∧ isStatus w true t.illegal t.tfault)
            ∧ ∀ n : Nat, ∃ r, hostReadRespDuring .ending n s = some r ∧ (r = s.resp ∨ r = t.resp))
        ∧ (t.busy = true → hostReadStatusDuring .ending s = none)

/-! ## Control, queries and the sequencer -/

/-- NOP and CLEAR_STATUS (R206, R207): acceptance and completion only; both sticky bits cleared, `BUSY` cleared by the request's
end. Either with a nonzero `SUB` is illegal. -/
def Obligations.NopAndClearStatus : Prop :=
  ∀ (s : State) (rest : List Word),
    decode (0x0000 :: rest) = .ok .nop rest ∧ exec .nop s = .next s.afterRegs
    ∧ decode (0x0900 :: rest) = .ok .clearStatus rest ∧ exec .clearStatus s = .next { s.afterRegs with status := 0x0000 }
    ∧ ∀ sub : Byte, sub ≠ 0 →
        (∃ why, decode (ofBytes 0x00 sub :: rest) = .illegal why rest)
        ∧ ∃ why, decode (ofBytes 0x09 sub :: rest) = .illegal why rest

/-- GET_ROTATION, GET_WIDTH, GET_HEIGHT and COLOR565 (R201, R203, R204, R205): the response is the register, or the top 5, 6 and 5
bits of the channels, the high byte of the second operand word ignored; no bus traffic. -/
def Obligations.QueriesAnswer : Prop :=
  ∀ (s : State) (r g b ignored : Byte) (rest : List Word),
    decode (0x0400 :: rest) = .ok .getRotation rest
    ∧ exec .getRotation s = .next { s.afterRegs with resp := BitVec.ofNat 16 s.ds.rotation.toNat }
    ∧ decode (0x0600 :: rest) = .ok .getWidth rest ∧ exec .getWidth s = .next { s.afterRegs with resp := s.ds.width }
    ∧ decode (0x0700 :: rest) = .ok .getHeight rest ∧ exec .getHeight s = .next { s.afterRegs with resp := s.ds.height }
    ∧ decode (0x0800 :: ofBytes r g :: ofBytes ignored b :: rest) = .ok (.color565 r g b) rest
    ∧ exec (.color565 r g b) s
      = .next { s.afterRegs with resp := BitVec.ofNat 16 (r.toNat / 8 * 2048 + g.toNat / 4 * 32 + b.toNat / 8) }

/-- SET_CURSOR, SET_TEXT_COLOR, SET_TEXT_SCALE, SET_TEXT_WRAP (R186 to R189): their registers, no bus traffic. -/
def Obligations.TextSettersWriteTheirRegisters : Prop :=
  ∀ (s : State) (rest : List Word) (x y : Word) (sc : Byte) (f : Bool),
    decode (0x2A00 :: x :: y :: rest) = .ok (.setCursor x y) rest
    ∧ exec (.setCursor x y) s = .next { s.afterRegs with ds := { s.ds with cursorX := x, cursorY := y } }
    ∧ decode (0x2B00 :: x :: y :: rest) = .ok (.setTextColor x y) rest
    ∧ exec (.setTextColor x y) s = .next { s.afterRegs with ds := { s.ds with textColor := x, textBg := y } }
    ∧ decode (BitVec.ofNat 16 (0x2C00 + sc.toNat) :: rest) = .ok (.setTextScale sc) rest
    ∧ exec (.setTextScale sc) s = .next { s.afterRegs with ds := { s.ds with textScale := if sc = 0 then 1 else sc } }
    ∧ decode (BitVec.ofNat 16 (0x2D00 + f.toNat) :: rest) = .ok (.setTextWrap f) rest
    ∧ exec (.setTextWrap f) s = .next { s.afterRegs with ds := { s.ds with wrap := f } }

/-- SET_ROTATION (R200, R8): the access-control command for `r mod 4`, then rotation, size and madctl. -/
def Obligations.SetRotationSendsAndCommits : Prop :=
  ∀ (s : State) (r : Byte) (rest : List Word), s.TransportAnswers →
    let m := (s.cfg.rotMadctl.get ⟨s.ds.variant.toNat, s.ds.variant.isLt⟩).get ⟨r.toNat % 4, by omega⟩
    decode (BitVec.ofNat 16 (0x0300 + r.toNat) :: rest) = .ok (.setRotation r) rest
    ∧ exec (.setRotation r) s = .next
      { s.afterBus [.sel, .cmd s.cfg.opMadctl, .d8 m, .drain, .desel] with
        ds := { s.ds with
          rotation := BitVec.ofNat 2 (r.toNat % 4)
          width := BitVec.ofNat 16 (if r.toNat % 2 = 1 then s.cfg.panelH else s.cfg.panelW)
          height := BitVec.ofNat 16 (if r.toNat % 2 = 1 then s.cfg.panelW else s.cfg.panelH)
          madctl := m } }

/-- INVERT (R202): one command, no argument, no delay, no register. -/
def Obligations.InvertSendsOneCommand : Prop :=
  ∀ (s : State) (f : Bool) (rest : List Word), s.TransportAnswers →
    decode (BitVec.ofNat 16 (0x0500 + f.toNat) :: rest) = .ok (.invert f) rest
    ∧ exec (.invert f) s
      = .next (s.afterBus [.sel, .cmd (if f = true then s.cfg.opInvon else s.cfg.opInvoff), .drain, .desel])

/-- RUN_TABLE (R82, R80, R81, R84, R85): every step of the table is one critical section, in order; `S.madctl` becomes the first
argument of the last MADCTL step that has one. -/
def Obligations.RunTableReplaysTheTable : Prop :=
  ∀ (s : State) (t : Fin 5) (rest : List Word), s.TransportAnswers →
    let steps := s.cfg.initTables.get t
    decode (BitVec.ofNat 16 (0x0200 + t.val) :: rest) = .ok (.runTable (BitVec.ofNat 3 t.val)) rest
    ∧ exec (.runTable (BitVec.ofNat 3 t.val)) s = .next
      { s.afterBus (steps.flatMap fun st => commandEvents st.opcode st.args st.delay) with
        ds := { s.ds with
          madctl := ((steps.filterMap fun st => if st.opcode = s.cfg.opMadctl then st.args.head? else none).getLast?).getD
            s.ds.madctl } }

/-- INIT (R83, R84, R11): the variant's tables in order, its own MADCTL last if it has one; then the eight registers. -/
def Obligations.InitReplaysAndCommits : Prop :=
  ∀ (s : State) (v : BitVec 2) (rest : List Word), s.TransportAnswers →
    let vc := s.cfg.variantCfg.get ⟨v.toNat, v.isLt⟩
    let steps := (vc.tables.flatMap fun t => s.cfg.initTables.get t)
      ++ (match vc.postMadctl with
          | none => []
          | some m => [⟨s.cfg.opMadctl, [m], none⟩])
    decode (BitVec.ofNat 16 (0x0100 + v.toNat) :: rest) = .ok (.init v) rest
    ∧ exec (.init v) s = .next
      { s.afterBus (steps.flatMap fun st => commandEvents st.opcode st.args st.delay) with
        ds := { s.ds with
          variant := v
          colOffset := vc.colOffset
          rowOffset := vc.rowOffset
          colorSwap := vc.colorSwap
          rotation := 0
          width := BitVec.ofNat 16 s.cfg.panelW
          height := BitVec.ofNat 16 s.cfg.panelH
          madctl := ((steps.filterMap fun st => if st.opcode = s.cfg.opMadctl then st.args.head? else none).getLast?).getD
            s.ds.madctl } }

/-! ## Pixels, spans, rectangles and lines -/

/-- The R/B swap (R106): red and blue fields exchanged, green kept; an involution. -/
def Obligations.SwapExchangesRedAndBlue : Prop :=
  ∀ c : Word,
    (swap565 c).toNat = c.toNat % 32 * 2048 + c.toNat / 32 % 64 * 32 + c.toNat / 2048 ∧ swap565 (swap565 c) = c

/-- PIXEL (R120, R107): one burst of one word on-screen, nothing off-screen. -/
def Obligations.PixelIsOneWordOrNothing : Prop :=
  ∀ (s : State) (x y c : Word) (rest : List Word), s.TransportAnswers →
    decode (0x1000 :: x :: y :: c :: rest) = .ok (.pixel x y c) rest
    ∧ exec (.pixel x y c) s = .next (s.afterBus
        (if 0 ≤ x.toInt ∧ x.toInt < (s.ds.width.toNat : Int) ∧ 0 ≤ y.toInt ∧ y.toInt < (s.ds.height.toNat : Int) then
          burstEvents s x.toInt y.toInt x.toInt y.toInt [plainWord s c]
        else []))

/-- HLINE, VLINE, FILL_RECT (R121, R122, R123, with R102, R103, R107): one burst over the clipped rectangle, as many words as it
covers. FILL_SCREEN (R77) covers the whole logical screen. -/
def Obligations.SolidRequestsFillTheClippedRectangle : Prop :=
  ∀ (s : State) (x y w h c : Word) (rest : List Word), s.TransportAnswers →
    decode (0x1100 :: x :: y :: w :: c :: rest) = .ok (.hline x y w c) rest
    ∧ exec (.hline x y w c) s = .next (s.afterBus (solidEvents s x.toInt y.toInt w.toInt 1 (hvWord s c)))
    ∧ decode (0x1200 :: x :: y :: h :: c :: rest) = .ok (.vline x y h c) rest
    ∧ exec (.vline x y h c) s = .next (s.afterBus (solidEvents s x.toInt y.toInt 1 h.toInt (hvWord s c)))
    ∧ decode (0x1300 :: x :: y :: w :: h :: c :: rest) = .ok (.fillRect x y w h c) rest
    ∧ exec (.fillRect x y w h c) s = .next (s.afterBus (solidEvents s x.toInt y.toInt w.toInt h.toInt (plainWord s c)))
    ∧ (1 ≤ s.ds.width.toNat → s.ds.width.toNat ≤ 32767 → 1 ≤ s.ds.height.toNat → s.ds.height.toNat ≤ 32767 →
        exec (fillScreen c) s = .next (s.afterBus (burstEvents s 0 0 (s.ds.width.toNat - 1) (s.ds.height.toNat - 1)
          (List.replicate (s.ds.width.toNat * s.ds.height.toNat) (plainWord s c)))))

/-- RECT (R124): top, bottom, left, right, each a span of its own. -/
def Obligations.RectIsFourSpans : Prop :=
  ∀ (s : State) (x y w h c : Word) (rest : List Word), s.TransportAnswers →
    decode (0x1400 :: x :: y :: w :: h :: c :: rest) = .ok (.rect x y w h c) rest
    ∧ exec (.rect x y w h c) s = .next (s.afterBus
        (solidEvents s x.toInt y.toInt w.toInt 1 (hvWord s c)
          ++ solidEvents s x.toInt (y.toInt + h.toInt - 1) w.toInt 1 (hvWord s c)
          ++ solidEvents s x.toInt y.toInt 1 h.toInt (hvWord s c)
          ++ solidEvents s (x.toInt + w.toInt - 1) y.toInt 1 h.toInt (hvWord s c)))

/-- LINE (R125, R127): one burst a run, its window the remaining strip to the line's end, its words the run's on-screen pixels. -/
def Obligations.LineIsOneBurstARun : Prop :=
  ∀ (s : State) (x0 y0 x1 y1 c : Word) (rest : List Word), s.TransportAnswers →
    let p := linePixels x0.toInt y0.toInt x1.toInt y1.toInt
    decode (0x1500 :: x0 :: y0 :: x1 :: y1 :: c :: rest) = .ok (.line x0 y0 x1 y1 c) rest
    ∧ exec (.line x0 y0 x1 y1 c) s
      = .next (s.afterBus ((runsOf p.pts).flatMap fun r => runEvents s p.steep p.xEnd r (plainWord s c)))

/-- LINE_PIXELS (R126) in closed form: the major axis is the longer one (x if they are equal), it is walked upward from the end
with the lesser major coordinate, and the minor coordinate has moved `(k * dy + dx - 1 - dx div 2) div dx` after `k` steps. -/
def Obligations.LinePixelsClosedForm : Prop :=
  ∀ x0 y0 x1 y1 : Int,
    let steep := |y1 - y0| > |x1 - x0|
    let major0 := if steep then y0 else x0
    let minor0 := if steep then x0 else y0
    let major1 := if steep then y1 else x1
    let minor1 := if steep then x1 else y1
    let u0 := min major0 major1
    let v0 := if major0 > major1 then minor1 else minor0
    let v1 := if major0 > major1 then minor0 else minor1
    let dx := |major1 - major0|
    let dy := |minor1 - minor0|
    linePixels x0 y0 x1 y1 =
      { steep := decide steep
        xEnd := max major0 major1
        pts := (List.range (dx.toNat + 1)).map fun (k : Nat) =>
          (u0 + (k : Int), v0 + (if v0 < v1 then 1 else -1) * (((k : Int) * dy + dx - 1 - dx / 2) / dx)) }

/-- RUNS (R127): the runs are not empty, spell out the points in order, and are maximal: two runs in a row have different minor
coordinates. -/
def Obligations.RunsAreMaximal : Prop :=
  ∀ x0 y0 x1 y1 : Int,
    let pts := (linePixels x0 y0 x1 y1).pts
    (runsOf pts).flatMap (fun r => (intRange r.a r.b).map fun u => (u, r.m)) = pts
    ∧ (∀ r ∈ runsOf pts, r.a ≤ r.b) ∧ (runsOf pts).IsChain (fun r r' => r.m ≠ r'.m)

/-! ## Circles and rounded rectangles -/

/-- MIDPOINT (R140): from `(0, r)` on, each step adds 1 to x and takes 1 from y exactly when the midpoint is not inside the
circle; it goes on while x is less than y; it yields at most `r` points, each with `1 <= x <= y + 1`. -/
def Obligations.MidpointFollowsTheCircle : Prop :=
  ∀ r : Int,
    List.IsChain
      (fun p q => p.1 < p.2 ∧ q = (p.1 + 1, if r * r ≤ (p.1 + 1) * (p.1 + 1) + p.2 * p.2 - p.2 then p.2 - 1 else p.2))
      ((0, r) :: midpointSteps r)
    ∧ (∀ p, ((0, r) :: midpointSteps r).getLast? = some p → p.2 ≤ p.1)
    ∧ (∀ p ∈ midpointSteps r, 1 ≤ p.1 ∧ p.1 ≤ p.2 + 1) ∧ (midpointSteps r).length ≤ r.toNat

/-- CIRCLE and CIRCLE_HELPER (R141, R142, R147): the axis points, then the reflections of every midpoint step, all of them or those
of the selected quadrants, in order, each a PIXEL. -/
def Obligations.CirclesDrawTheirReflections : Prop :=
  ∀ (s : State) (m : BitVec 4) (x0 y0 r c : Word) (rest : List Word), s.TransportAnswers →
    decode (0x1800 :: x0 :: y0 :: r :: c :: rest) = .ok (.circle x0 y0 r c) rest
    ∧ exec (.circle x0 y0 r c) s = .next (s.afterBus (pixelsEvents s (circlePixels x0.toInt y0.toInt r.toInt) c))
    ∧ decode (BitVec.ofNat 16 (0x1900 + m.toNat) :: x0 :: y0 :: r :: c :: rest) = .ok (.circleHelper m x0 y0 r c) rest
    ∧ exec (.circleHelper m x0 y0 r c) s
      = .next (s.afterBus (pixelsEvents s (helperPixels m.toNat x0.toInt y0.toInt r.toInt) c))

/-- FILL_CIRCLE and FILL_CIRCLE_HELPER (R143, R144): VLINE spans, in order. -/
def Obligations.FilledCirclesDrawTheirSpans : Prop :=
  ∀ (s : State) (m : BitVec 2) (x0 y0 r extra c : Word) (rest : List Word), s.TransportAnswers →
    decode (0x1A00 :: x0 :: y0 :: r :: c :: rest) = .ok (.fillCircle x0 y0 r c) rest
    ∧ exec (.fillCircle x0 y0 r c) s
      = .next (s.afterBus (spansEvents s ((x0.toInt, y0.toInt - r.toInt, 2 * r.toInt + 1)
          :: helperSpans 3 x0.toInt y0.toInt r.toInt 0) c))
    ∧ decode (BitVec.ofNat 16 (0x1B00 + m.toNat) :: x0 :: y0 :: r :: extra :: c :: rest)
      = .ok (.fillCircleHelper m x0 y0 r extra c) rest
    ∧ exec (.fillCircleHelper m x0 y0 r extra c) s
      = .next (s.afterBus (spansEvents s (helperSpans m.toNat x0.toInt y0.toInt r.toInt extra.toInt) c))

/-- ROUND_RECT and FILL_ROUND_RECT (R145, R146): two HLINEs, two VLINEs, then the corners with masks 1, 2, 4, 8; the inset
rectangle, then the spans of the right and of the left side. This is R145's pseudocode; where its corner case says otherwise of
the edges, log entry 33. -/
def Obligations.RoundedRectanglesAreTheirParts : Prop :=
  ∀ (s : State) (xw yw ww hw rw c : Word) (rest : List Word), s.TransportAnswers →
    let x := xw.toInt
    let y := yw.toInt
    let w := ww.toInt
    let h := hw.toInt
    let r := rw.toInt
    decode (0x1C00 :: xw :: yw :: ww :: hw :: rw :: c :: rest) = .ok (.roundRect xw yw ww hw rw c) rest
    ∧ exec (.roundRect xw yw ww hw rw c) s = .next (s.afterBus
        (solidEvents s (x + r) y (w - 2 * r) 1 (hvWord s c) ++ solidEvents s (x + r) (y + h - 1) (w - 2 * r) 1 (hvWord s c)
          ++ solidEvents s x (y + r) 1 (h - 2 * r) (hvWord s c) ++ solidEvents s (x + w - 1) (y + r) 1 (h - 2 * r) (hvWord s c)
          ++ pixelsEvents s (helperPixels 1 (x + r) (y + r) r ++ helperPixels 2 (x + w - r - 1) (y + r) r
            ++ helperPixels 4 (x + w - r - 1) (y + h - r - 1) r ++ helperPixels 8 (x + r) (y + h - r - 1) r) c))
    ∧ decode (0x1D00 :: xw :: yw :: ww :: hw :: rw :: c :: rest) = .ok (.fillRoundRect xw yw ww hw rw c) rest
    ∧ exec (.fillRoundRect xw yw ww hw rw c) s = .next (s.afterBus
        (solidEvents s (x + r) y (w - 2 * r) h (plainWord s c)
          ++ spansEvents s (helperSpans 1 (x + w - r - 1) (y + r) r (h - 2 * r - 1)
            ++ helperSpans 2 (x + r) (y + r) r (h - 2 * r - 1)) c))

/-! ## Triangles and bitmaps -/

/-- TRIANGLE (R160): the three LINEs 0-1, 1-2, 2-0. -/
def Obligations.TriangleIsThreeLines : Prop :=
  ∀ (s : State) (x0 y0 x1 y1 x2 y2 c : Word) (rest : List Word), s.TransportAnswers →
    let side (ax ay bx by' : Word) : List BusEvent :=
      (runsOf (linePixels ax.toInt ay.toInt bx.toInt by'.toInt).pts).flatMap fun r =>
        runEvents s (linePixels ax.toInt ay.toInt bx.toInt by'.toInt).steep
          (linePixels ax.toInt ay.toInt bx.toInt by'.toInt).xEnd r (plainWord s c)
    decode (0x2000 :: x0 :: y0 :: x1 :: y1 :: x2 :: y2 :: c :: rest) = .ok (.triangle x0 y0 x1 y1 x2 y2 c) rest
    ∧ exec (.triangle x0 y0 x1 y1 x2 y2 c) s
      = .next (s.afterBus (side x0 y0 x1 y1 ++ side x1 y1 x2 y2 ++ side x2 y2 x0 y0))

/-- The sort of FILL_TRIANGLE (R161): ascending in y, a rearrangement, ties in their order. -/
def Obligations.VerticesAreSortedByRow : Prop :=
  ∀ p q r a b c : Vertex, sortByY p q r = (a, b, c) →
    a.y ≤ b.y ∧ b.y ≤ c.y ∧ ∀ k : Int, [a, b, c].filter (fun v => v.y == k) = [p, q, r].filter (fun v => v.y == k)

/-- FILL_TRIANGLE (R161, R162) in closed form: one HLINE a scanline, from the lesser to the greater of the two edge crossings,
both by truncating division from the top vertex of their edge; one HLINE from least to greatest x if all are on one row. -/
def Obligations.FillTriangleSpansTheCrossings : Prop :=
  ∀ (s : State) (x0 y0 x1 y1 x2 y2 c : Word) (rest : List Word) (p0 p1 p2 : Vertex), s.TransportAnswers →
    sortByY ⟨x0.toInt, y0.toInt⟩ ⟨x1.toInt, y1.toInt⟩ ⟨x2.toInt, y2.toInt⟩ = (p0, p1, p2) →
    decode (0x2100 :: x0 :: y0 :: x1 :: y1 :: x2 :: y2 :: c :: rest) = .ok (.fillTriangle x0 y0 x1 y1 x2 y2 c) rest
    ∧ exec (.fillTriangle x0 y0 x1 y1 x2 y2 c) s = .next (s.afterBus
        (if p0.y = p2.y then
          solidEvents s (min p0.x (min p1.x p2.x)) p0.y
            (max p0.x (max p1.x p2.x) - min p0.x (min p1.x p2.x) + 1) 1 (hvWord s c)
        else
          (intRange p0.y p2.y).flatMap fun y =>
            solidEvents s (min (shortEdge p0 p1 p2 y) (crossing p0 p2 y)) y
              (|shortEdge p0 p1 p2 y - crossing p0 p2 y| + 1) 1 (hvWord s c)))

/-- BITMAP (R163, R41, R62): a PIXEL for every set bit, rows outer and columns inner, the most significant bit of a byte first;
the address words low word first; the bitmap bytes unchanged. -/
def Obligations.BitmapDrawsItsSetBits : Prop :=
  ∀ (s : State) (x y w h c alo ahi : Word) (rest : List Word), s.TransportAnswers → s.bitmapRace = [] →
    let addr : Nat := ahi.toNat * 65536 + alo.toNat
    decode (0x2200 :: x :: y :: w :: h :: c :: alo :: ahi :: rest) = .ok (.bitmap x y w h c (BitVec.ofNat 32 addr)) rest
    ∧ exec (.bitmap x y w h c (BitVec.ofNat 32 addr)) s = .next
      ({ s with raceReads := s.raceReads + w.toInt.toNat * h.toInt.toNat }.afterBus
        ((List.range h.toInt.toNat).flatMap fun (j : Nat) => (List.range w.toInt.toNat).flatMap fun (i : Nat) =>
          if (Memory.read s.bitmap ((addr + j * ((w.toInt.toNat + 7) / 8) + i / 8) % 2 ^ s.cfg.bmpAw)).getLsbD (7 - i % 8) = true then
            pixelEvents s (x.toInt + (i : Int)) (y.toInt + (j : Int)) (plainWord s c)
          else []))

/-- A bitmap byte that another agent changes during a BITMAP reads as the old or as the new byte, each read on its own
(R50, R261, U4); every other byte reads as it is. Which of the two is the free value of log entry 11. -/
def Obligations.RacingBytesReadOldOrNew : Prop :=
  ∀ (s : State) (x y w h c : Word) (addr : BitVec 32), s.TransportAnswers →
    ∃ (byte : Nat → Nat → Byte) (t : State), exec (.bitmap x y w h c addr) s = .next t
      ∧ (∀ j i, let a := addr.toNat + j * ((w.toInt.toNat + 7) / 8) + i / 8
          byte j i = memRead s a ∨ ∃ k ∈ s.bitmapRace, k.1 % 2 ^ s.cfg.bmpAw = a % 2 ^ s.cfg.bmpAw ∧ byte j i = k.2)
      ∧ t.trace = s.trace ++ ((List.range h.toInt.toNat).flatMap fun (j : Nat) => (List.range w.toInt.toNat).flatMap fun (i : Nat) =>
          if (byte j i).getLsbD (7 - i % 8) = true then
            pixelEvents s (x.toInt + (i : Int)) (y.toInt + (j : Int)) (plainWord s c)
          else [])

/-! ## Glyphs and text -/

/-- DRAW_CHAR (R180 to R183): the fast path where R181 selects it, the general path otherwise; scale 0 is scale 1. -/
def Obligations.DrawCharTakesItsPath : Prop :=
  ∀ (s : State) (g : Bool) (x y fg bg : Word) (sc code : Byte) (rest : List Word), s.TransportAnswers →
    decode (BitVec.ofNat 16 (0x2800 + g.toNat) :: x :: y :: fg :: bg :: ofBytes sc code :: rest)
      = .ok (.drawChar g x y fg bg sc code) rest
    ∧ exec (.drawChar g x y fg bg sc code) s = .next (s.afterBus (charEvents s x.toInt y.toInt fg bg sc code g))

/-- WRITE_CHAR (R185): newline, carriage return, or a character drawn at the cursor, wrapped first if it would exceed the right
margin; then the cursor modulo 2^16. -/
def Obligations.WriteCharDrawsAndAdvances : Prop :=
  ∀ (s : State) (code : Byte) (rest : List Word), s.TransportAnswers →
    let sc : Int := s.ds.textScale.toNat
    let cx := s.ds.cursorX.toInt
    let cy := s.ds.cursorY.toInt
    let wrapped := s.ds.wrap = true ∧ cx + 6 * sc > (s.ds.width.toNat : Int)
    let px := if wrapped then 0 else cx
    let py := if wrapped then cy + 8 * sc else cy
    decode (BitVec.ofNat 16 (0x2900 + code.toNat) :: rest) = .ok (.writeChar code) rest
    ∧ exec (.writeChar code) s = .next
      (if code = 0x0A then
        { s.afterBus [] with ds := { s.ds with cursorX := 0, cursorY := BitVec.ofInt 16 (cy + 8 * sc) } }
      else if code = 0x0D then s.afterBus []
      else
        { s.afterBus (charEvents s px py s.ds.textColor s.ds.textBg s.ds.textScale code false) with
          ds := { s.ds with cursorX := BitVec.ofInt 16 (px + 6 * sc), cursorY := BitVec.ofInt 16 py } })

/-! ## What the display shows, under the reference controller of R45 to R47 -/

/-- Solid fills write exactly their on-screen pixels, row by row, in the selected colour word (R100, R103, R104, R107). -/
def Obligations.SolidFillsWriteExactlyTheirPixels : Prop :=
  ∀ (s t : State) (k : Controller) (x y w h c : Word),
    s.TransportAnswers → OpcodesDistinct s.cfg → s.WindowFits →
    (exec (.hline x y w c) s = .next t →
      writesOf s k (t.trace.drop s.trace.length) = s.drawnPixels (rectPixels x.toInt y.toInt w.toInt 1) (hvWord s c))
    ∧ (exec (.vline x y h c) s = .next t →
      writesOf s k (t.trace.drop s.trace.length) = s.drawnPixels (rectPixels x.toInt y.toInt 1 h.toInt) (hvWord s c))
    ∧ (exec (.fillRect x y w h c) s = .next t →
      writesOf s k (t.trace.drop s.trace.length)
        = s.drawnPixels (rectPixels x.toInt y.toInt w.toInt h.toInt) (plainWord s c))

/-- A line writes exactly its on-screen points, in order, although its bursts send fewer words than their windows cover
(R47, R104, R126, R127). -/
def Obligations.LineWritesExactlyItsPoints : Prop :=
  ∀ (s t : State) (k : Controller) (x0 y0 x1 y1 c : Word),
    s.TransportAnswers → OpcodesDistinct s.cfg → s.WindowFits → exec (.line x0 y0 x1 y1 c) s = .next t →
      writesOf s k (t.trace.drop s.trace.length)
        = s.drawnPixels (linePixels x0.toInt y0.toInt x1.toInt y1.toInt).logical (plainWord s c)

/-- CIRCLE and CIRCLE_HELPER with all four quadrants write the same set of pixels (R148). -/
def Obligations.CircleEqualsItsFullHelper : Prop :=
  ∀ (s t u : State) (k : Controller) (x0 y0 r c : Word),
    s.TransportAnswers → OpcodesDistinct s.cfg → s.WindowFits →
    exec (.circle x0 y0 r c) s = .next t → exec (.circleHelper 0xF x0 y0 r c) s = .next u →
      ∀ p : PixelWrite, p ∈ writesOf s k (t.trace.drop s.trace.length) ↔ p ∈ writesOf s k (u.trace.drop s.trace.length)

/-- The two glyph paths write the same pixels: the 48 of the cell, in the same order (R184, R182, R183). -/
def Obligations.GlyphPathsWriteTheSamePixels : Prop :=
  ∀ (s t u : State) (k : Controller) (x y fg bg : Word) (code : Byte),
    s.TransportAnswers → OpcodesDistinct s.cfg → s.cfg.ToggleOk → s.WindowFits → fg ≠ bg →
    0 ≤ x.toInt → x.toInt + 5 < (s.ds.width.toNat : Int) → 0 ≤ y.toInt → y.toInt + 7 < (s.ds.height.toNat : Int) →
    exec (.drawChar false x y fg bg 1 code) s = .next t → exec (.drawChar true x y fg bg 1 code) s = .next u →
      let cell := (List.range 48).map fun (n : Nat) =>
        (⟨some (x.toInt + ((n / 8 : Nat) : Int), y.toInt + ((n % 8 : Nat) : Int)),
          plainWord s (if glyphBit s code n = true then fg else bg)⟩ : PixelWrite)
      writesOf s k (t.trace.drop s.trace.length) = cell ∧ writesOf s k (u.trace.drop s.trace.length) = cell

/-- Every drawing request's events are window bursts within the screen that send at least one word and at most as many as their
window covers, or whole on-screen glyph cells (R101, R104, R181). -/
def Obligations.DrawingStaysOnScreen : Prop :=
  ∀ (i : Instr) (s t : State), s.TransportAnswers → exec i s = .next t →
    (drawsBursts i = true ∨ (∃ g x y fg bg sc code, i = .drawChar g x y fg bg sc code) ∨ ∃ code, i = .writeChar code) →
      ∃ parts : List (List BusEvent), t.trace = s.trace ++ parts.flatten
        ∧ (∀ p ∈ parts, s.IsBurst p ∨ s.IsGlyph p) ∧ (drawsBursts i = true → ∀ p ∈ parts, s.IsBurst p)

/-- A line or a filled triangle none of whose pixels is on-screen emits nothing, whatever the transport does (R105): no point of
R126 is, no pixel between the two crossings of R162 is on any scanline, or the vertices lie beyond one edge of the screen. -/
def Obligations.OffScreenShapesAreSilent : Prop :=
  ∀ (s : State) (x0 y0 x1 y1 x2 y2 c : Word),
    ((∀ p ∈ (linePixels x0.toInt y0.toInt x1.toInt y1.toInt).logical, ¬s.OnScreen p) →
      exec (.line x0 y0 x1 y1 c) s = .next (s.afterBus []))
    ∧ (∀ p0 p1 p2 : Vertex, sortByY ⟨x0.toInt, y0.toInt⟩ ⟨x1.toInt, y1.toInt⟩ ⟨x2.toInt, y2.toInt⟩ = (p0, p1, p2) →
      (∀ x y : Int, p0.y ≤ y → y ≤ p2.y →
        (if p0.y = p2.y then min p0.x (min p1.x p2.x) ≤ x ∧ x ≤ max p0.x (max p1.x p2.x)
        else min (shortEdge p0 p1 p2 y) (crossing p0 p2 y) ≤ x ∧ x ≤ max (shortEdge p0 p1 p2 y) (crossing p0 p2 y)) →
        ¬s.OnScreen (x, y)) →
      exec (.fillTriangle x0 y0 x1 y1 x2 y2 c) s = .next (s.afterBus []))
    ∧ ((max x0.toInt (max x1.toInt x2.toInt) < 0 ∨ (s.ds.width.toNat : Int) ≤ min x0.toInt (min x1.toInt x2.toInt)
        ∨ max y0.toInt (max y1.toInt y2.toInt) < 0 ∨ (s.ds.height.toNat : Int) ≤ min y0.toInt (min y1.toInt y2.toInt)) →
      exec (.fillTriangle x0 y0 x1 y1 x2 y2 c) s = .next (s.afterBus []))

/-! ## Frames -/

/-- A request writes only the registers R22 and R23 give it, whatever the transport does: every other register keeps its
value, the status keeps its reserved zeros and its `ILLEGAL` bit, its `TFAULT` bit too if the transport answers, and the words
behind the request stay. -/
def Obligations.RequestsWriteOnlyTheirRegisters : Prop :=
  ∀ (i : Instr) (s t : State), i.WellFormed → exec i s = .next t →
    ((∀ v, i ≠ .init v) →
      t.ds.variant = s.ds.variant ∧ t.ds.colOffset = s.ds.colOffset ∧ t.ds.rowOffset = s.ds.rowOffset
      ∧ t.ds.colorSwap = s.ds.colorSwap
      ∧ ((∀ r, i ≠ .setRotation r) →
        t.ds.rotation = s.ds.rotation ∧ t.ds.width = s.ds.width ∧ t.ds.height = s.ds.height
        ∧ ((∀ tb, i ≠ .runTable tb) → t.ds.madctl = s.ds.madctl)))
    ∧ ((∀ x y, i ≠ .setCursor x y) → (∀ code, i ≠ .writeChar code) →
      t.ds.cursorX = s.ds.cursorX ∧ t.ds.cursorY = s.ds.cursorY)
    ∧ ((∀ fg bg, i ≠ .setTextColor fg bg) → t.ds.textColor = s.ds.textColor ∧ t.ds.textBg = s.ds.textBg)
    ∧ ((∀ sc, i ≠ .setTextScale sc) → t.ds.textScale = s.ds.textScale)
    ∧ ((∀ f, i ≠ .setTextWrap f) → t.ds.wrap = s.ds.wrap)
    ∧ (i ≠ .getRotation → i ≠ .getWidth → i ≠ .getHeight → (∀ r g b, i ≠ .color565 r g b) → t.resp = s.resp)
    ∧ (i ≠ .clearStatus → t.illegal = s.illegal ∧ (s.TransportAnswers → t.tfault = s.tfault)) ∧ t.status.toNat < 8
    ∧ t.chan = s.chan ∧ t.latched = s.latched ∧ t.cfg = s.cfg

/-- No request writes a bitmap byte (R17, R41): every byte reads after as before, but for one that another agent changes during
a BITMAP, which reads as its new value (R50; the first one listed, the model's choice, log entry 11). -/
def Obligations.RequestsLeaveTheBitmapBytes : Prop :=
  ∀ (i : Instr) (s t : State) (a : Nat), s.MemoryOk → exec i s = .next t →
    ((∀ x y w h c ad, i ≠ .bitmap x y w h c ad) → memRead t a = memRead s a ∧ t.bitmapRace = s.bitmapRace)
    ∧ ((∀ k ∈ s.bitmapRace, k.1 % 2 ^ s.cfg.bmpAw ≠ a % 2 ^ s.cfg.bmpAw) → memRead t a = memRead s a)
    ∧ (∀ b, (∃ x y w h c ad, i = .bitmap x y w h c ad) →
        (s.bitmapRace.find? fun k => k.1 % 2 ^ s.cfg.bmpAw == a % 2 ^ s.cfg.bmpAw).map (·.2) = some b → memRead t a = b)

/-- The bitmap source space (R41): addresses count modulo `2^BMP_AW`; a byte the host provides reads back, and no other byte
changes; two memories in canonical form that read alike are equal. -/
def Obligations.BitmapSpaceReadsWhatWasProvided : Prop :=
  (∀ (s : State) (a a' : Nat) (b : Byte), s.MemoryOk →
    memRead s (a + 2 ^ s.cfg.bmpAw) = memRead s a
    ∧ memRead (hostProvideByte a b s) a' = if a' % 2 ^ s.cfg.bmpAw = a % 2 ^ s.cfg.bmpAw then b else memRead s a')
  ∧ ∀ m m' : List Host.Cell, Memory.wf m = true → Memory.wf m' = true → (∀ a, Memory.read m a = Memory.read m' a) → m = m'
end

