-- ==== Sys2Proof/Laws/Decode.lean ====
section
/-!
SUPPORT. Small laws of the decoder and the encoder.
-/

namespace Sys2Proof

@[simp] theorem decode_nil : decode [] = .idle := rfl

/-- The operand words of a request: what its encoding has after the head word. -/
theorem encode_ne_nil (i : Instr) : encode i ≠ [] := by cases i <;> simp [encode]

/-- A request is at most eight words (R60). -/
theorem encode_length_le (i : Instr) : (encode i).length ≤ 8 := by cases i <;> simp [encode]

theorem wordsOfNat_length (n w : Nat) : (wordsOfNat n w).length = n := by
  induction n generalizing w with
  | zero => rfl
  | succ n ih => simp [wordsOfNat, ih]

/-- No two rows of the opcode map match one head word (R61, R65). -/
theorem rows_disjoint_masks :
    rows.Pairwise (fun r r' => r.pattern &&& r'.mask ≠ r'.pattern &&& r.mask) := by
  decide

/-- What the decoder can answer `ok` for. -/
theorem decode_ok {ws : List Word} {i : Instr} {rest : List Word} (h : decode ws = .ok i rest) :
    ∃ w0 tl r, ws = w0 :: tl ∧ decodeHead w0 = .ok r ∧ r.operands ≤ tl.length
      ∧ r.build w0 (tl.take r.operands) = some i ∧ rest = tl.drop r.operands := by
  unfold decode at h
  split at h
  · cases h
  · rename_i w0 tl
    split at h
    · cases h
    · rename_i r hr
      split at h
      · cases h
      · rename_i hl
        split at h
        · rename_i j hj
          cases h
          exact ⟨w0, tl, r, rfl, hr, by omega, hj, rfl⟩
        · cases h

/-- At most one row matches a head word. -/
theorem matches_unique {r r' : Row} {w0 : Word} (hne : r.pattern &&& r'.mask ≠ r'.pattern &&& r.mask)
    (h : r.matchesHead w0 = true) : r'.matchesHead w0 = false := by
  by_contra h'
  have h1 : w0 &&& r.mask = r.pattern := by simpa [Row.matchesHead] using h
  have h2 : w0 &&& r'.mask = r'.pattern := by simpa [Row.matchesHead] using h'
  apply hne
  rw [← h1, ← h2, BitVec.and_assoc, BitVec.and_assoc, BitVec.and_comm r.mask]

/-- The row of a head word is the one it matches. -/
theorem rowOf_eq {r : Row} {w0 : Word} (hr : r ∈ rows) (h : r.matchesHead w0 = true) : rowOf w0 = some r := by
  have key : ∀ l : List Row, l.Pairwise (fun r r' => r.pattern &&& r'.mask ≠ r'.pattern &&& r.mask) → r ∈ l →
      l.find? (·.matchesHead w0) = some r := by
    intro l hl hm
    induction l with
    | nil => cases hm
    | cons q l ih =>
      rw [List.pairwise_cons] at hl
      rcases List.mem_cons.mp hm with rfl | hm
      · rw [List.find?_cons_of_pos (by simpa using h)]
      · rw [List.find?_cons_of_neg]
        · exact ih hl.2 hm
        · simpa using matches_unique (hl.1 r hm).symm h
  exact key rows rows_disjoint_masks hr

/-- A head word that matches a row, and is not a RUN_TABLE of 5 to 7, decodes to that row. -/
theorem decodeHead_eq {r : Row} {w0 : Word} (hr : r ∈ rows) (h : r.matchesHead w0 = true) (ht : badTableId w0 = false) :
    decodeHead w0 = .ok r := by
  simp [decodeHead, rowOf_eq hr h, ht]

/-- A legal head word with its operand words decodes to what its row builds. -/
theorem decode_eq {w0 : Word} {ops rest : List Word} {r : Row} {i : Instr} (h : decodeHead w0 = .ok r)
    (hl : ops.length = r.operands) (hb : r.build w0 ops = some i) : decode (w0 :: (ops ++ rest)) = .ok i rest := by
  simp [decode, h, ← hl, hb]

/-- An illegal head word is consumed alone (R66). -/
theorem decode_illegal {w0 : Word} {why : Reject} (h : decodeHead w0 = .error why) (ws : List Word) :
    decode (w0 :: ws) = .illegal why ws := by
  simp [decode, h]

end Sys2Proof
end

