-- ==== Sys2Proof/Laws/State.lean ====
section
/-!
SUPPORT. The value of every field of State after every named update, one lemma per field per update, each true by unfolding the
update once.
-/

namespace Sys2Proof.Machine

variable (s : State)

/-! ### `State.setBusy` -/

@[simp] theorem State.setBusy_ds : s.setBusy.ds = s.ds := rfl
@[simp] theorem State.setBusy_status : s.setBusy.status = setBits busyMask s.status := rfl
@[simp] theorem State.setBusy_resp : s.setBusy.resp = s.resp := rfl
@[simp] theorem State.setBusy_owned : s.setBusy.owned = s.owned := rfl
@[simp] theorem State.setBusy_pendMad : s.setBusy.pendMad = s.pendMad := rfl
@[simp] theorem State.setBusy_window : s.setBusy.window = s.window := rfl
@[simp] theorem State.setBusy_held : s.setBusy.held = s.held := rfl
@[simp] theorem State.setBusy_latched : s.setBusy.latched = s.latched := rfl
@[simp] theorem State.setBusy_chan : s.setBusy.chan = s.chan := rfl
@[simp] theorem State.setBusy_bitmap : s.setBusy.bitmap = s.bitmap := rfl
@[simp] theorem State.setBusy_bitmapRace : s.setBusy.bitmapRace = s.bitmapRace := rfl
@[simp] theorem State.setBusy_raceReads : s.setBusy.raceReads = s.raceReads := rfl
@[simp] theorem State.setBusy_transport : s.setBusy.transport = s.transport := rfl
@[simp] theorem State.setBusy_trace : s.setBusy.trace = s.trace := rfl
@[simp] theorem State.setBusy_cfg : s.setBusy.cfg = s.cfg := rfl

/-! ### `State.clearBusy` -/

@[simp] theorem State.clearBusy_ds : s.clearBusy.ds = s.ds := rfl
@[simp] theorem State.clearBusy_status : s.clearBusy.status = clearBits busyMask s.status := rfl
@[simp] theorem State.clearBusy_resp : s.clearBusy.resp = s.resp := rfl
@[simp] theorem State.clearBusy_owned : s.clearBusy.owned = s.owned := rfl
@[simp] theorem State.clearBusy_pendMad : s.clearBusy.pendMad = s.pendMad := rfl
@[simp] theorem State.clearBusy_window : s.clearBusy.window = s.window := rfl
@[simp] theorem State.clearBusy_held : s.clearBusy.held = s.held := rfl
@[simp] theorem State.clearBusy_latched : s.clearBusy.latched = s.latched := rfl
@[simp] theorem State.clearBusy_chan : s.clearBusy.chan = s.chan := rfl
@[simp] theorem State.clearBusy_bitmap : s.clearBusy.bitmap = s.bitmap := rfl
@[simp] theorem State.clearBusy_bitmapRace : s.clearBusy.bitmapRace = s.bitmapRace := rfl
@[simp] theorem State.clearBusy_raceReads : s.clearBusy.raceReads = s.raceReads := rfl
@[simp] theorem State.clearBusy_transport : s.clearBusy.transport = s.transport := rfl
@[simp] theorem State.clearBusy_trace : s.clearBusy.trace = s.trace := rfl
@[simp] theorem State.clearBusy_cfg : s.clearBusy.cfg = s.cfg := rfl

/-! ### `State.setIllegal` -/

@[simp] theorem State.setIllegal_ds : s.setIllegal.ds = s.ds := rfl
@[simp] theorem State.setIllegal_status : s.setIllegal.status = setBits illegalMask s.status := rfl
@[simp] theorem State.setIllegal_resp : s.setIllegal.resp = s.resp := rfl
@[simp] theorem State.setIllegal_owned : s.setIllegal.owned = s.owned := rfl
@[simp] theorem State.setIllegal_pendMad : s.setIllegal.pendMad = s.pendMad := rfl
@[simp] theorem State.setIllegal_window : s.setIllegal.window = s.window := rfl
@[simp] theorem State.setIllegal_held : s.setIllegal.held = s.held := rfl
@[simp] theorem State.setIllegal_latched : s.setIllegal.latched = s.latched := rfl
@[simp] theorem State.setIllegal_chan : s.setIllegal.chan = s.chan := rfl
@[simp] theorem State.setIllegal_bitmap : s.setIllegal.bitmap = s.bitmap := rfl
@[simp] theorem State.setIllegal_bitmapRace : s.setIllegal.bitmapRace = s.bitmapRace := rfl
@[simp] theorem State.setIllegal_raceReads : s.setIllegal.raceReads = s.raceReads := rfl
@[simp] theorem State.setIllegal_transport : s.setIllegal.transport = s.transport := rfl
@[simp] theorem State.setIllegal_trace : s.setIllegal.trace = s.trace := rfl
@[simp] theorem State.setIllegal_cfg : s.setIllegal.cfg = s.cfg := rfl

/-! ### `State.setTfault` -/

@[simp] theorem State.setTfault_ds : s.setTfault.ds = s.ds := rfl
@[simp] theorem State.setTfault_status : s.setTfault.status = setBits tfaultMask s.status := rfl
@[simp] theorem State.setTfault_resp : s.setTfault.resp = s.resp := rfl
@[simp] theorem State.setTfault_owned : s.setTfault.owned = s.owned := rfl
@[simp] theorem State.setTfault_pendMad : s.setTfault.pendMad = s.pendMad := rfl
@[simp] theorem State.setTfault_window : s.setTfault.window = s.window := rfl
@[simp] theorem State.setTfault_held : s.setTfault.held = s.held := rfl
@[simp] theorem State.setTfault_latched : s.setTfault.latched = s.latched := rfl
@[simp] theorem State.setTfault_chan : s.setTfault.chan = s.chan := rfl
@[simp] theorem State.setTfault_bitmap : s.setTfault.bitmap = s.bitmap := rfl
@[simp] theorem State.setTfault_bitmapRace : s.setTfault.bitmapRace = s.bitmapRace := rfl
@[simp] theorem State.setTfault_raceReads : s.setTfault.raceReads = s.raceReads := rfl
@[simp] theorem State.setTfault_transport : s.setTfault.transport = s.transport := rfl
@[simp] theorem State.setTfault_trace : s.setTfault.trace = s.trace := rfl
@[simp] theorem State.setTfault_cfg : s.setTfault.cfg = s.cfg := rfl

/-! ### `State.clearSticky` -/

@[simp] theorem State.clearSticky_ds : s.clearSticky.ds = s.ds := rfl
@[simp] theorem State.clearSticky_status : s.clearSticky.status = clearBits (illegalMask ||| tfaultMask) s.status := rfl
@[simp] theorem State.clearSticky_resp : s.clearSticky.resp = s.resp := rfl
@[simp] theorem State.clearSticky_owned : s.clearSticky.owned = s.owned := rfl
@[simp] theorem State.clearSticky_pendMad : s.clearSticky.pendMad = s.pendMad := rfl
@[simp] theorem State.clearSticky_window : s.clearSticky.window = s.window := rfl
@[simp] theorem State.clearSticky_held : s.clearSticky.held = s.held := rfl
@[simp] theorem State.clearSticky_latched : s.clearSticky.latched = s.latched := rfl
@[simp] theorem State.clearSticky_chan : s.clearSticky.chan = s.chan := rfl
@[simp] theorem State.clearSticky_bitmap : s.clearSticky.bitmap = s.bitmap := rfl
@[simp] theorem State.clearSticky_bitmapRace : s.clearSticky.bitmapRace = s.bitmapRace := rfl
@[simp] theorem State.clearSticky_raceReads : s.clearSticky.raceReads = s.raceReads := rfl
@[simp] theorem State.clearSticky_transport : s.clearSticky.transport = s.transport := rfl
@[simp] theorem State.clearSticky_trace : s.clearSticky.trace = s.trace := rfl
@[simp] theorem State.clearSticky_cfg : s.clearSticky.cfg = s.cfg := rfl

/-! ### `settleRace` -/

@[simp] theorem settleRace_ds (n : Nat) : (settleRace n s).ds = s.ds := rfl
@[simp] theorem settleRace_status (n : Nat) : (settleRace n s).status = s.status := rfl
@[simp] theorem settleRace_resp (n : Nat) : (settleRace n s).resp = s.resp := rfl
@[simp] theorem settleRace_owned (n : Nat) : (settleRace n s).owned = s.owned := rfl
@[simp] theorem settleRace_pendMad (n : Nat) : (settleRace n s).pendMad = s.pendMad := rfl
@[simp] theorem settleRace_window (n : Nat) : (settleRace n s).window = s.window := rfl
@[simp] theorem settleRace_held (n : Nat) : (settleRace n s).held = s.held := rfl
@[simp] theorem settleRace_latched (n : Nat) : (settleRace n s).latched = s.latched := rfl
@[simp] theorem settleRace_chan (n : Nat) : (settleRace n s).chan = s.chan := rfl
@[simp] theorem settleRace_bitmap (n : Nat) : (settleRace n s).bitmap = s.bitmapRace.foldr (fun c m => Memory.write (bitmapAddr s c.1) c.2 m) s.bitmap := rfl
@[simp] theorem settleRace_bitmapRace (n : Nat) : (settleRace n s).bitmapRace = [] := rfl
@[simp] theorem settleRace_raceReads (n : Nat) : (settleRace n s).raceReads = s.raceReads + n := rfl
@[simp] theorem settleRace_transport (n : Nat) : (settleRace n s).transport = s.transport := rfl
@[simp] theorem settleRace_trace (n : Nat) : (settleRace n s).trace = s.trace := rfl
@[simp] theorem settleRace_cfg (n : Nat) : (settleRace n s).cfg = s.cfg := rfl

/-! ### `emit` -/

@[simp] theorem emit_ds (ev : BusEvent) : (emit ev s).ds = s.ds := rfl
@[simp] theorem emit_status (ev : BusEvent) : (emit ev s).status = s.status := rfl
@[simp] theorem emit_resp (ev : BusEvent) : (emit ev s).resp = s.resp := rfl
@[simp] theorem emit_owned (ev : BusEvent) : (emit ev s).owned = s.owned := rfl
@[simp] theorem emit_pendMad (ev : BusEvent) : (emit ev s).pendMad = s.pendMad := rfl
@[simp] theorem emit_window (ev : BusEvent) : (emit ev s).window = s.window := rfl
@[simp] theorem emit_held (ev : BusEvent) : (emit ev s).held = s.held := rfl
@[simp] theorem emit_latched (ev : BusEvent) : (emit ev s).latched = s.latched := rfl
@[simp] theorem emit_chan (ev : BusEvent) : (emit ev s).chan = s.chan := rfl
@[simp] theorem emit_bitmap (ev : BusEvent) : (emit ev s).bitmap = s.bitmap := rfl
@[simp] theorem emit_bitmapRace (ev : BusEvent) : (emit ev s).bitmapRace = s.bitmapRace := rfl
@[simp] theorem emit_raceReads (ev : BusEvent) : (emit ev s).raceReads = s.raceReads := rfl
@[simp] theorem emit_transport (ev : BusEvent) : (emit ev s).transport = s.transport := rfl
@[simp] theorem emit_trace (ev : BusEvent) : (emit ev s).trace = s.trace ++ [ev] := rfl
@[simp] theorem emit_cfg (ev : BusEvent) : (emit ev s).cfg = s.cfg := rfl

/-! ### `emitAll` -/

@[simp] theorem emitAll_ds (evs : List BusEvent) : (emitAll evs s).ds = s.ds := rfl
@[simp] theorem emitAll_status (evs : List BusEvent) : (emitAll evs s).status = s.status := rfl
@[simp] theorem emitAll_resp (evs : List BusEvent) : (emitAll evs s).resp = s.resp := rfl
@[simp] theorem emitAll_owned (evs : List BusEvent) : (emitAll evs s).owned = s.owned := rfl
@[simp] theorem emitAll_pendMad (evs : List BusEvent) : (emitAll evs s).pendMad = s.pendMad := rfl
@[simp] theorem emitAll_window (evs : List BusEvent) : (emitAll evs s).window = s.window := rfl
@[simp] theorem emitAll_held (evs : List BusEvent) : (emitAll evs s).held = s.held := rfl
@[simp] theorem emitAll_latched (evs : List BusEvent) : (emitAll evs s).latched = s.latched := rfl
@[simp] theorem emitAll_chan (evs : List BusEvent) : (emitAll evs s).chan = s.chan := rfl
@[simp] theorem emitAll_bitmap (evs : List BusEvent) : (emitAll evs s).bitmap = s.bitmap := rfl
@[simp] theorem emitAll_bitmapRace (evs : List BusEvent) : (emitAll evs s).bitmapRace = s.bitmapRace := rfl
@[simp] theorem emitAll_raceReads (evs : List BusEvent) : (emitAll evs s).raceReads = s.raceReads := rfl
@[simp] theorem emitAll_transport (evs : List BusEvent) : (emitAll evs s).transport = s.transport := rfl
@[simp] theorem emitAll_trace (evs : List BusEvent) : (emitAll evs s).trace = s.trace ++ evs := rfl
@[simp] theorem emitAll_cfg (evs : List BusEvent) : (emitAll evs s).cfg = s.cfg := rfl

/-! ### `emitSel` -/

@[simp] theorem emitSel_ds : (emitSel s).ds = s.ds := rfl
@[simp] theorem emitSel_status : (emitSel s).status = s.status := rfl
@[simp] theorem emitSel_resp : (emitSel s).resp = s.resp := rfl
@[simp] theorem emitSel_owned : (emitSel s).owned = true := rfl
@[simp] theorem emitSel_pendMad : (emitSel s).pendMad = s.pendMad := rfl
@[simp] theorem emitSel_window : (emitSel s).window = s.window := rfl
@[simp] theorem emitSel_held : (emitSel s).held = s.held := rfl
@[simp] theorem emitSel_latched : (emitSel s).latched = s.latched := rfl
@[simp] theorem emitSel_chan : (emitSel s).chan = s.chan := rfl
@[simp] theorem emitSel_bitmap : (emitSel s).bitmap = s.bitmap := rfl
@[simp] theorem emitSel_bitmapRace : (emitSel s).bitmapRace = s.bitmapRace := rfl
@[simp] theorem emitSel_raceReads : (emitSel s).raceReads = s.raceReads := rfl
@[simp] theorem emitSel_transport : (emitSel s).transport = s.transport := rfl
@[simp] theorem emitSel_trace : (emitSel s).trace = s.trace ++ [.sel] := rfl
@[simp] theorem emitSel_cfg : (emitSel s).cfg = s.cfg := rfl

/-! ### `emitDesel` -/

@[simp] theorem emitDesel_ds : (emitDesel s).ds = s.ds := rfl
@[simp] theorem emitDesel_status : (emitDesel s).status = s.status := rfl
@[simp] theorem emitDesel_resp : (emitDesel s).resp = s.resp := rfl
@[simp] theorem emitDesel_owned : (emitDesel s).owned = false := rfl
@[simp] theorem emitDesel_pendMad : (emitDesel s).pendMad = s.pendMad := rfl
@[simp] theorem emitDesel_window : (emitDesel s).window = s.window := rfl
@[simp] theorem emitDesel_held : (emitDesel s).held = s.held := rfl
@[simp] theorem emitDesel_latched : (emitDesel s).latched = s.latched := rfl
@[simp] theorem emitDesel_chan : (emitDesel s).chan = s.chan := rfl
@[simp] theorem emitDesel_bitmap : (emitDesel s).bitmap = s.bitmap := rfl
@[simp] theorem emitDesel_bitmapRace : (emitDesel s).bitmapRace = s.bitmapRace := rfl
@[simp] theorem emitDesel_raceReads : (emitDesel s).raceReads = s.raceReads := rfl
@[simp] theorem emitDesel_transport : (emitDesel s).transport = s.transport := rfl
@[simp] theorem emitDesel_trace : (emitDesel s).trace = s.trace ++ [.desel] := rfl
@[simp] theorem emitDesel_cfg : (emitDesel s).cfg = s.cfg := rfl

/-! ### `State.dropAnswer` -/

@[simp] theorem State.dropAnswer_ds : s.dropAnswer.ds = s.ds := rfl
@[simp] theorem State.dropAnswer_status : s.dropAnswer.status = s.status := rfl
@[simp] theorem State.dropAnswer_resp : s.dropAnswer.resp = s.resp := rfl
@[simp] theorem State.dropAnswer_owned : s.dropAnswer.owned = s.owned := rfl
@[simp] theorem State.dropAnswer_pendMad : s.dropAnswer.pendMad = s.pendMad := rfl
@[simp] theorem State.dropAnswer_window : s.dropAnswer.window = s.window := rfl
@[simp] theorem State.dropAnswer_held : s.dropAnswer.held = s.held := rfl
@[simp] theorem State.dropAnswer_latched : s.dropAnswer.latched = s.latched := rfl
@[simp] theorem State.dropAnswer_chan : s.dropAnswer.chan = s.chan := rfl
@[simp] theorem State.dropAnswer_bitmap : s.dropAnswer.bitmap = s.bitmap := rfl
@[simp] theorem State.dropAnswer_bitmapRace : s.dropAnswer.bitmapRace = s.bitmapRace := rfl
@[simp] theorem State.dropAnswer_raceReads : s.dropAnswer.raceReads = s.raceReads := rfl
@[simp] theorem State.dropAnswer_transport : s.dropAnswer.transport = s.transport.tail := rfl
@[simp] theorem State.dropAnswer_trace : s.dropAnswer.trace = s.trace := rfl
@[simp] theorem State.dropAnswer_cfg : s.dropAnswer.cfg = s.cfg := rfl

/-! ### `endRequest` -/

@[simp] theorem endRequest_ds : (endRequest s).ds = s.ds := rfl
@[simp] theorem endRequest_status : (endRequest s).status = clearBits busyMask s.status := rfl
@[simp] theorem endRequest_resp : (endRequest s).resp = s.resp := rfl
@[simp] theorem endRequest_owned : (endRequest s).owned = s.owned := rfl
@[simp] theorem endRequest_pendMad : (endRequest s).pendMad = none := rfl
@[simp] theorem endRequest_window : (endRequest s).window = none := rfl
@[simp] theorem endRequest_held : (endRequest s).held = s.held := rfl
@[simp] theorem endRequest_latched : (endRequest s).latched = s.latched := rfl
@[simp] theorem endRequest_chan : (endRequest s).chan = s.chan := rfl
@[simp] theorem endRequest_bitmap : (endRequest s).bitmap = s.bitmap := rfl
@[simp] theorem endRequest_bitmapRace : (endRequest s).bitmapRace = s.bitmapRace := rfl
@[simp] theorem endRequest_raceReads : (endRequest s).raceReads = s.raceReads := rfl
@[simp] theorem endRequest_transport : (endRequest s).transport = s.transport := rfl
@[simp] theorem endRequest_trace : (endRequest s).trace = s.trace := rfl
@[simp] theorem endRequest_cfg : (endRequest s).cfg = s.cfg := rfl

/-! ### `takeIllegalRequest` -/

@[simp] theorem takeIllegalRequest_ds : (takeIllegalRequest s).ds = s.ds := rfl
@[simp] theorem takeIllegalRequest_status : (takeIllegalRequest s).status = clearBits busyMask (setBits illegalMask s.status) := rfl
@[simp] theorem takeIllegalRequest_resp : (takeIllegalRequest s).resp = s.resp := rfl
@[simp] theorem takeIllegalRequest_owned : (takeIllegalRequest s).owned = s.owned := rfl
@[simp] theorem takeIllegalRequest_pendMad : (takeIllegalRequest s).pendMad = none := rfl
@[simp] theorem takeIllegalRequest_window : (takeIllegalRequest s).window = none := rfl
@[simp] theorem takeIllegalRequest_held : (takeIllegalRequest s).held = s.held := rfl
@[simp] theorem takeIllegalRequest_latched : (takeIllegalRequest s).latched = s.latched := rfl
@[simp] theorem takeIllegalRequest_chan : (takeIllegalRequest s).chan = s.chan := rfl
@[simp] theorem takeIllegalRequest_bitmap : (takeIllegalRequest s).bitmap = s.bitmap := rfl
@[simp] theorem takeIllegalRequest_bitmapRace : (takeIllegalRequest s).bitmapRace = s.bitmapRace := rfl
@[simp] theorem takeIllegalRequest_raceReads : (takeIllegalRequest s).raceReads = s.raceReads := rfl
@[simp] theorem takeIllegalRequest_transport : (takeIllegalRequest s).transport = s.transport := rfl
@[simp] theorem takeIllegalRequest_trace : (takeIllegalRequest s).trace = s.trace := rfl
@[simp] theorem takeIllegalRequest_cfg : (takeIllegalRequest s).cfg = s.cfg := rfl

/-! ### `takeTransportFault` -/

@[simp] theorem takeTransportFault_ds : (takeTransportFault s).ds = s.ds := rfl
@[simp] theorem takeTransportFault_status : (takeTransportFault s).status = clearBits busyMask (setBits tfaultMask s.status) := rfl
@[simp] theorem takeTransportFault_resp : (takeTransportFault s).resp = s.resp := rfl
@[simp] theorem takeTransportFault_owned : (takeTransportFault s).owned = false := rfl
@[simp] theorem takeTransportFault_pendMad : (takeTransportFault s).pendMad = none := rfl
@[simp] theorem takeTransportFault_window : (takeTransportFault s).window = none := rfl
@[simp] theorem takeTransportFault_held : (takeTransportFault s).held = s.held := rfl
@[simp] theorem takeTransportFault_latched : (takeTransportFault s).latched = s.latched := rfl
@[simp] theorem takeTransportFault_chan : (takeTransportFault s).chan = s.chan := rfl
@[simp] theorem takeTransportFault_bitmap : (takeTransportFault s).bitmap = s.bitmap := rfl
@[simp] theorem takeTransportFault_bitmapRace : (takeTransportFault s).bitmapRace = s.bitmapRace := rfl
@[simp] theorem takeTransportFault_raceReads : (takeTransportFault s).raceReads = s.raceReads := rfl
@[simp] theorem takeTransportFault_transport : (takeTransportFault s).transport = s.transport := rfl
@[simp] theorem takeTransportFault_trace : (takeTransportFault s).trace = s.trace ++ [.desel] := rfl
@[simp] theorem takeTransportFault_cfg : (takeTransportFault s).cfg = s.cfg := rfl

/-! ### `holdForever` -/

@[simp] theorem holdForever_ds (h : Hold) : (holdForever h s).ds = s.ds := rfl
@[simp] theorem holdForever_status (h : Hold) : (holdForever h s).status = setBits busyMask s.status := rfl
@[simp] theorem holdForever_resp (h : Hold) : (holdForever h s).resp = s.resp := rfl
@[simp] theorem holdForever_owned (h : Hold) : (holdForever h s).owned = s.owned := rfl
@[simp] theorem holdForever_pendMad (h : Hold) : (holdForever h s).pendMad = s.pendMad := rfl
@[simp] theorem holdForever_window (h : Hold) : (holdForever h s).window = s.window := rfl
@[simp] theorem holdForever_held (h : Hold) : (holdForever h s).held = some h := rfl
@[simp] theorem holdForever_latched (h : Hold) : (holdForever h s).latched = s.latched := rfl
@[simp] theorem holdForever_chan (h : Hold) : (holdForever h s).chan = s.chan := rfl
@[simp] theorem holdForever_bitmap (h : Hold) : (holdForever h s).bitmap = s.bitmap := rfl
@[simp] theorem holdForever_bitmapRace (h : Hold) : (holdForever h s).bitmapRace = s.bitmapRace := rfl
@[simp] theorem holdForever_raceReads (h : Hold) : (holdForever h s).raceReads = s.raceReads := rfl
@[simp] theorem holdForever_transport (h : Hold) : (holdForever h s).transport = s.transport := rfl
@[simp] theorem holdForever_trace (h : Hold) : (holdForever h s).trace = s.trace := rfl
@[simp] theorem holdForever_cfg (h : Hold) : (holdForever h s).cfg = s.cfg := rfl

/-! ### `openCritical` -/

@[simp] theorem openCritical_ds (c : Critical) : (openCritical c s).ds = s.ds := rfl
@[simp] theorem openCritical_status (c : Critical) : (openCritical c s).status = s.status := rfl
@[simp] theorem openCritical_resp (c : Critical) : (openCritical c s).resp = s.resp := rfl
@[simp] theorem openCritical_owned (c : Critical) : (openCritical c s).owned = true := rfl
@[simp] theorem openCritical_pendMad (c : Critical) : (openCritical c s).pendMad = s.pendMad := rfl
@[simp] theorem openCritical_window (c : Critical) : (openCritical c s).window = c.window := rfl
@[simp] theorem openCritical_held (c : Critical) : (openCritical c s).held = s.held := rfl
@[simp] theorem openCritical_latched (c : Critical) : (openCritical c s).latched = s.latched := rfl
@[simp] theorem openCritical_chan (c : Critical) : (openCritical c s).chan = s.chan := rfl
@[simp] theorem openCritical_bitmap (c : Critical) : (openCritical c s).bitmap = s.bitmap := rfl
@[simp] theorem openCritical_bitmapRace (c : Critical) : (openCritical c s).bitmapRace = s.bitmapRace := rfl
@[simp] theorem openCritical_raceReads (c : Critical) : (openCritical c s).raceReads = s.raceReads := rfl
@[simp] theorem openCritical_transport (c : Critical) : (openCritical c s).transport = s.transport := rfl
@[simp] theorem openCritical_trace (c : Critical) : (openCritical c s).trace = s.trace ++ [.sel] ++ c.body := rfl
@[simp] theorem openCritical_cfg (c : Critical) : (openCritical c s).cfg = s.cfg := rfl

/-! ### `closeCritical` -/

@[simp] theorem closeCritical_ds (c : Critical) : (closeCritical c s).ds = s.ds := rfl
@[simp] theorem closeCritical_status (c : Critical) : (closeCritical c s).status = s.status := rfl
@[simp] theorem closeCritical_resp (c : Critical) : (closeCritical c s).resp = s.resp := rfl
@[simp] theorem closeCritical_owned (c : Critical) : (closeCritical c s).owned = false := rfl
@[simp] theorem closeCritical_pendMad (c : Critical) : (closeCritical c s).pendMad = (c.snoop <|> s.pendMad) := rfl
@[simp] theorem closeCritical_window (c : Critical) : (closeCritical c s).window = none := rfl
@[simp] theorem closeCritical_held (c : Critical) : (closeCritical c s).held = s.held := rfl
@[simp] theorem closeCritical_latched (c : Critical) : (closeCritical c s).latched = s.latched := rfl
@[simp] theorem closeCritical_chan (c : Critical) : (closeCritical c s).chan = s.chan := rfl
@[simp] theorem closeCritical_bitmap (c : Critical) : (closeCritical c s).bitmap = s.bitmap := rfl
@[simp] theorem closeCritical_bitmapRace (c : Critical) : (closeCritical c s).bitmapRace = s.bitmapRace := rfl
@[simp] theorem closeCritical_raceReads (c : Critical) : (closeCritical c s).raceReads = s.raceReads := rfl
@[simp] theorem closeCritical_transport (c : Critical) : (closeCritical c s).transport = s.transport := rfl
@[simp] theorem closeCritical_trace (c : Critical) : (closeCritical c s).trace = s.trace ++ [.desel] := rfl
@[simp] theorem closeCritical_cfg (c : Critical) : (closeCritical c s).cfg = s.cfg := rfl

/-! ### `respond` -/

@[simp] theorem respond_ds (w : Word) : (respond w s).ds = s.ds := rfl
@[simp] theorem respond_status (w : Word) : (respond w s).status = s.status := rfl
@[simp] theorem respond_resp (w : Word) : (respond w s).resp = w := rfl
@[simp] theorem respond_owned (w : Word) : (respond w s).owned = s.owned := rfl
@[simp] theorem respond_pendMad (w : Word) : (respond w s).pendMad = s.pendMad := rfl
@[simp] theorem respond_window (w : Word) : (respond w s).window = s.window := rfl
@[simp] theorem respond_held (w : Word) : (respond w s).held = s.held := rfl
@[simp] theorem respond_latched (w : Word) : (respond w s).latched = s.latched := rfl
@[simp] theorem respond_chan (w : Word) : (respond w s).chan = s.chan := rfl
@[simp] theorem respond_bitmap (w : Word) : (respond w s).bitmap = s.bitmap := rfl
@[simp] theorem respond_bitmapRace (w : Word) : (respond w s).bitmapRace = s.bitmapRace := rfl
@[simp] theorem respond_raceReads (w : Word) : (respond w s).raceReads = s.raceReads := rfl
@[simp] theorem respond_transport (w : Word) : (respond w s).transport = s.transport := rfl
@[simp] theorem respond_trace (w : Word) : (respond w s).trace = s.trace := rfl
@[simp] theorem respond_cfg (w : Word) : (respond w s).cfg = s.cfg := rfl

/-! ### `commitMadctl` -/

@[simp] theorem commitMadctl_ds : (commitMadctl s).ds = { s.ds with madctl := s.pendMad.getD s.ds.madctl } := rfl
@[simp] theorem commitMadctl_status : (commitMadctl s).status = s.status := rfl
@[simp] theorem commitMadctl_resp : (commitMadctl s).resp = s.resp := rfl
@[simp] theorem commitMadctl_owned : (commitMadctl s).owned = s.owned := rfl
@[simp] theorem commitMadctl_pendMad : (commitMadctl s).pendMad = s.pendMad := rfl
@[simp] theorem commitMadctl_window : (commitMadctl s).window = s.window := rfl
@[simp] theorem commitMadctl_held : (commitMadctl s).held = s.held := rfl
@[simp] theorem commitMadctl_latched : (commitMadctl s).latched = s.latched := rfl
@[simp] theorem commitMadctl_chan : (commitMadctl s).chan = s.chan := rfl
@[simp] theorem commitMadctl_bitmap : (commitMadctl s).bitmap = s.bitmap := rfl
@[simp] theorem commitMadctl_bitmapRace : (commitMadctl s).bitmapRace = s.bitmapRace := rfl
@[simp] theorem commitMadctl_raceReads : (commitMadctl s).raceReads = s.raceReads := rfl
@[simp] theorem commitMadctl_transport : (commitMadctl s).transport = s.transport := rfl
@[simp] theorem commitMadctl_trace : (commitMadctl s).trace = s.trace := rfl
@[simp] theorem commitMadctl_cfg : (commitMadctl s).cfg = s.cfg := rfl

/-! ### `commitRotation` -/

@[simp] theorem commitRotation_ds (r : BitVec 2) (m : Byte) : (commitRotation r m s).ds = { s.ds with
      rotation := r, width := logicalWidth s.cfg r, height := logicalHeight s.cfg r, madctl := m } := rfl
@[simp] theorem commitRotation_status (r : BitVec 2) (m : Byte) : (commitRotation r m s).status = s.status := rfl
@[simp] theorem commitRotation_resp (r : BitVec 2) (m : Byte) : (commitRotation r m s).resp = s.resp := rfl
@[simp] theorem commitRotation_owned (r : BitVec 2) (m : Byte) : (commitRotation r m s).owned = s.owned := rfl
@[simp] theorem commitRotation_pendMad (r : BitVec 2) (m : Byte) : (commitRotation r m s).pendMad = s.pendMad := rfl
@[simp] theorem commitRotation_window (r : BitVec 2) (m : Byte) : (commitRotation r m s).window = s.window := rfl
@[simp] theorem commitRotation_held (r : BitVec 2) (m : Byte) : (commitRotation r m s).held = s.held := rfl
@[simp] theorem commitRotation_latched (r : BitVec 2) (m : Byte) : (commitRotation r m s).latched = s.latched := rfl
@[simp] theorem commitRotation_chan (r : BitVec 2) (m : Byte) : (commitRotation r m s).chan = s.chan := rfl
@[simp] theorem commitRotation_bitmap (r : BitVec 2) (m : Byte) : (commitRotation r m s).bitmap = s.bitmap := rfl
@[simp] theorem commitRotation_bitmapRace (r : BitVec 2) (m : Byte) : (commitRotation r m s).bitmapRace = s.bitmapRace := rfl
@[simp] theorem commitRotation_raceReads (r : BitVec 2) (m : Byte) : (commitRotation r m s).raceReads = s.raceReads := rfl
@[simp] theorem commitRotation_transport (r : BitVec 2) (m : Byte) : (commitRotation r m s).transport = s.transport := rfl
@[simp] theorem commitRotation_trace (r : BitVec 2) (m : Byte) : (commitRotation r m s).trace = s.trace := rfl
@[simp] theorem commitRotation_cfg (r : BitVec 2) (m : Byte) : (commitRotation r m s).cfg = s.cfg := rfl

/-! ### `commitCursor` -/

@[simp] theorem commitCursor_ds (p : Int × Int) : (commitCursor p s).ds = { s.ds with cursorX := u16 p.1, cursorY := u16 p.2 } := rfl
@[simp] theorem commitCursor_status (p : Int × Int) : (commitCursor p s).status = s.status := rfl
@[simp] theorem commitCursor_resp (p : Int × Int) : (commitCursor p s).resp = s.resp := rfl
@[simp] theorem commitCursor_owned (p : Int × Int) : (commitCursor p s).owned = s.owned := rfl
@[simp] theorem commitCursor_pendMad (p : Int × Int) : (commitCursor p s).pendMad = s.pendMad := rfl
@[simp] theorem commitCursor_window (p : Int × Int) : (commitCursor p s).window = s.window := rfl
@[simp] theorem commitCursor_held (p : Int × Int) : (commitCursor p s).held = s.held := rfl
@[simp] theorem commitCursor_latched (p : Int × Int) : (commitCursor p s).latched = s.latched := rfl
@[simp] theorem commitCursor_chan (p : Int × Int) : (commitCursor p s).chan = s.chan := rfl
@[simp] theorem commitCursor_bitmap (p : Int × Int) : (commitCursor p s).bitmap = s.bitmap := rfl
@[simp] theorem commitCursor_bitmapRace (p : Int × Int) : (commitCursor p s).bitmapRace = s.bitmapRace := rfl
@[simp] theorem commitCursor_raceReads (p : Int × Int) : (commitCursor p s).raceReads = s.raceReads := rfl
@[simp] theorem commitCursor_transport (p : Int × Int) : (commitCursor p s).transport = s.transport := rfl
@[simp] theorem commitCursor_trace (p : Int × Int) : (commitCursor p s).trace = s.trace := rfl
@[simp] theorem commitCursor_cfg (p : Int × Int) : (commitCursor p s).cfg = s.cfg := rfl

/-! ### `accept` -/

@[simp] theorem accept_ds (rest : List Word) : (accept rest s).ds = s.ds := rfl
@[simp] theorem accept_status (rest : List Word) : (accept rest s).status = setBits busyMask s.status := rfl
@[simp] theorem accept_resp (rest : List Word) : (accept rest s).resp = s.resp := rfl
@[simp] theorem accept_owned (rest : List Word) : (accept rest s).owned = s.owned := rfl
@[simp] theorem accept_pendMad (rest : List Word) : (accept rest s).pendMad = s.pendMad := rfl
@[simp] theorem accept_window (rest : List Word) : (accept rest s).window = s.window := rfl
@[simp] theorem accept_held (rest : List Word) : (accept rest s).held = s.held := rfl
@[simp] theorem accept_latched (rest : List Word) : (accept rest s).latched = [] := rfl
@[simp] theorem accept_chan (rest : List Word) : (accept rest s).chan = rest := rfl
@[simp] theorem accept_bitmap (rest : List Word) : (accept rest s).bitmap = s.bitmap := rfl
@[simp] theorem accept_bitmapRace (rest : List Word) : (accept rest s).bitmapRace = s.bitmapRace := rfl
@[simp] theorem accept_raceReads (rest : List Word) : (accept rest s).raceReads = s.raceReads := rfl
@[simp] theorem accept_transport (rest : List Word) : (accept rest s).transport = s.transport := rfl
@[simp] theorem accept_trace (rest : List Word) : (accept rest s).trace = s.trace := rfl
@[simp] theorem accept_cfg (rest : List Word) : (accept rest s).cfg = s.cfg := rfl

/-! ### `awaitOperands` -/

@[simp] theorem awaitOperands_ds : (awaitOperands s).ds = s.ds := rfl
@[simp] theorem awaitOperands_status : (awaitOperands s).status = setBits busyMask s.status := rfl
@[simp] theorem awaitOperands_resp : (awaitOperands s).resp = s.resp := rfl
@[simp] theorem awaitOperands_owned : (awaitOperands s).owned = s.owned := rfl
@[simp] theorem awaitOperands_pendMad : (awaitOperands s).pendMad = s.pendMad := rfl
@[simp] theorem awaitOperands_window : (awaitOperands s).window = s.window := rfl
@[simp] theorem awaitOperands_held : (awaitOperands s).held = s.held := rfl
@[simp] theorem awaitOperands_latched : (awaitOperands s).latched = s.waiting := rfl
@[simp] theorem awaitOperands_chan : (awaitOperands s).chan = [] := rfl
@[simp] theorem awaitOperands_bitmap : (awaitOperands s).bitmap = s.bitmap := rfl
@[simp] theorem awaitOperands_bitmapRace : (awaitOperands s).bitmapRace = s.bitmapRace := rfl
@[simp] theorem awaitOperands_raceReads : (awaitOperands s).raceReads = s.raceReads := rfl
@[simp] theorem awaitOperands_transport : (awaitOperands s).transport = s.transport := rfl
@[simp] theorem awaitOperands_trace : (awaitOperands s).trace = s.trace := rfl
@[simp] theorem awaitOperands_cfg : (awaitOperands s).cfg = s.cfg := rfl

/-! ### `placeRequest` -/

@[simp] theorem placeRequest_ds (ws : List Word) : (placeRequest ws s).ds = s.ds := rfl
@[simp] theorem placeRequest_status (ws : List Word) : (placeRequest ws s).status = clearBits busyMask s.status := rfl
@[simp] theorem placeRequest_resp (ws : List Word) : (placeRequest ws s).resp = s.resp := rfl
@[simp] theorem placeRequest_owned (ws : List Word) : (placeRequest ws s).owned = s.owned := rfl
@[simp] theorem placeRequest_pendMad (ws : List Word) : (placeRequest ws s).pendMad = s.pendMad := rfl
@[simp] theorem placeRequest_window (ws : List Word) : (placeRequest ws s).window = s.window := rfl
@[simp] theorem placeRequest_held (ws : List Word) : (placeRequest ws s).held = none := rfl
@[simp] theorem placeRequest_latched (ws : List Word) : (placeRequest ws s).latched = [] := rfl
@[simp] theorem placeRequest_chan (ws : List Word) : (placeRequest ws s).chan = ws ++ s.chan := rfl
@[simp] theorem placeRequest_bitmap (ws : List Word) : (placeRequest ws s).bitmap = s.bitmap := rfl
@[simp] theorem placeRequest_bitmapRace (ws : List Word) : (placeRequest ws s).bitmapRace = s.bitmapRace := rfl
@[simp] theorem placeRequest_raceReads (ws : List Word) : (placeRequest ws s).raceReads = s.raceReads := rfl
@[simp] theorem placeRequest_transport (ws : List Word) : (placeRequest ws s).transport = s.transport := rfl
@[simp] theorem placeRequest_trace (ws : List Word) : (placeRequest ws s).trace = s.trace := rfl
@[simp] theorem placeRequest_cfg (ws : List Word) : (placeRequest ws s).cfg = s.cfg := rfl

/-! ### `hostIssue` -/

@[simp] theorem hostIssue_ds (ws : List Word) : (hostIssue ws s).ds = s.ds := rfl
@[simp] theorem hostIssue_status (ws : List Word) : (hostIssue ws s).status = s.status := rfl
@[simp] theorem hostIssue_resp (ws : List Word) : (hostIssue ws s).resp = s.resp := rfl
@[simp] theorem hostIssue_owned (ws : List Word) : (hostIssue ws s).owned = s.owned := rfl
@[simp] theorem hostIssue_pendMad (ws : List Word) : (hostIssue ws s).pendMad = s.pendMad := rfl
@[simp] theorem hostIssue_window (ws : List Word) : (hostIssue ws s).window = s.window := rfl
@[simp] theorem hostIssue_held (ws : List Word) : (hostIssue ws s).held = s.held := rfl
@[simp] theorem hostIssue_latched (ws : List Word) : (hostIssue ws s).latched = s.latched := rfl
@[simp] theorem hostIssue_chan (ws : List Word) : (hostIssue ws s).chan = s.chan ++ ws := rfl
@[simp] theorem hostIssue_bitmap (ws : List Word) : (hostIssue ws s).bitmap = s.bitmap := rfl
@[simp] theorem hostIssue_bitmapRace (ws : List Word) : (hostIssue ws s).bitmapRace = s.bitmapRace := rfl
@[simp] theorem hostIssue_raceReads (ws : List Word) : (hostIssue ws s).raceReads = s.raceReads := rfl
@[simp] theorem hostIssue_transport (ws : List Word) : (hostIssue ws s).transport = s.transport := rfl
@[simp] theorem hostIssue_trace (ws : List Word) : (hostIssue ws s).trace = s.trace := rfl
@[simp] theorem hostIssue_cfg (ws : List Word) : (hostIssue ws s).cfg = s.cfg := rfl

/-! ### `hostProvideByte` -/

@[simp] theorem hostProvideByte_ds (a : Nat) (b : Byte) : (hostProvideByte a b s).ds = s.ds := rfl
@[simp] theorem hostProvideByte_status (a : Nat) (b : Byte) : (hostProvideByte a b s).status = s.status := rfl
@[simp] theorem hostProvideByte_resp (a : Nat) (b : Byte) : (hostProvideByte a b s).resp = s.resp := rfl
@[simp] theorem hostProvideByte_owned (a : Nat) (b : Byte) : (hostProvideByte a b s).owned = s.owned := rfl
@[simp] theorem hostProvideByte_pendMad (a : Nat) (b : Byte) : (hostProvideByte a b s).pendMad = s.pendMad := rfl
@[simp] theorem hostProvideByte_window (a : Nat) (b : Byte) : (hostProvideByte a b s).window = s.window := rfl
@[simp] theorem hostProvideByte_held (a : Nat) (b : Byte) : (hostProvideByte a b s).held = s.held := rfl
@[simp] theorem hostProvideByte_latched (a : Nat) (b : Byte) : (hostProvideByte a b s).latched = s.latched := rfl
@[simp] theorem hostProvideByte_chan (a : Nat) (b : Byte) : (hostProvideByte a b s).chan = s.chan := rfl
@[simp] theorem hostProvideByte_bitmap (a : Nat) (b : Byte) : (hostProvideByte a b s).bitmap = Memory.write (bitmapAddr s a) b s.bitmap := rfl
@[simp] theorem hostProvideByte_bitmapRace (a : Nat) (b : Byte) : (hostProvideByte a b s).bitmapRace = s.bitmapRace := rfl
@[simp] theorem hostProvideByte_raceReads (a : Nat) (b : Byte) : (hostProvideByte a b s).raceReads = s.raceReads := rfl
@[simp] theorem hostProvideByte_transport (a : Nat) (b : Byte) : (hostProvideByte a b s).transport = s.transport := rfl
@[simp] theorem hostProvideByte_trace (a : Nat) (b : Byte) : (hostProvideByte a b s).trace = s.trace := rfl
@[simp] theorem hostProvideByte_cfg (a : Nat) (b : Byte) : (hostProvideByte a b s).cfg = s.cfg := rfl

end Sys2Proof.Machine
end

