-- ==== Sys2Proof/Laws/Ops.lean ====
section
/-!
SUPPORT. What each shared operation can do, said once: the status bits, a critical section, a list of critical sections, a whole
request. Later proofs cite these and do not unfold the operations.
-/

namespace Sys2Proof.Machine

/-! ## Status bits -/

@[simp] theorem setBits_masked (m v : Word) : setBits m v &&& statusMask = setBits m v := by
  simp [setBits, BitVec.and_assoc]

@[simp] theorem clearBits_masked (m v : Word) : clearBits m v &&& statusMask = clearBits m v := by
  simp [clearBits, BitVec.and_assoc]

theorem statusMask_bit (k : Nat) (h : k < 3) : statusMask.getLsbD k = true := by
  match k, h with
  | 0, _ | 1, _ | 2, _ => decide

theorem setBits_bit (m v : Word) (k : Nat) (h : k < 3) : (setBits m v).getLsbD k = (v.getLsbD k || m.getLsbD k) := by
  simp [setBits, statusMask_bit k h]

theorem clearBits_bit (m v : Word) (k : Nat) (h : k < 3) : (clearBits m v).getLsbD k = (v.getLsbD k && !m.getLsbD k) := by
  have hk : k < 16 := by omega
  simp [clearBits, statusMask_bit k h, hk]

@[simp] theorem busy_setBusy_bits (v : Word) : (setBits busyMask v).getLsbD 0 = true := by
  rw [setBits_bit _ _ _ (by decide)]; simp [busyMask]

@[simp] theorem busy_clearBusy_bits (v : Word) : (clearBits busyMask v).getLsbD 0 = false := by
  rw [clearBits_bit _ _ _ (by decide)]; simp [busyMask]

@[simp] theorem busy_setIllegal_bits (v : Word) : (setBits illegalMask v).getLsbD 0 = v.getLsbD 0 := by
  rw [setBits_bit _ _ _ (by decide)]; simp [illegalMask]

@[simp] theorem busy_setTfault_bits (v : Word) : (setBits tfaultMask v).getLsbD 0 = v.getLsbD 0 := by
  rw [setBits_bit _ _ _ (by decide)]; simp [tfaultMask]

@[simp] theorem illegal_setBusy_bits (v : Word) : (setBits busyMask v).getLsbD 1 = v.getLsbD 1 := by
  rw [setBits_bit _ _ _ (by decide)]; simp [busyMask]

@[simp] theorem illegal_clearBusy_bits (v : Word) : (clearBits busyMask v).getLsbD 1 = v.getLsbD 1 := by
  rw [clearBits_bit _ _ _ (by decide)]; simp [busyMask]

@[simp] theorem illegal_setIllegal_bits (v : Word) : (setBits illegalMask v).getLsbD 1 = true := by
  rw [setBits_bit _ _ _ (by decide)]; simp [illegalMask]

@[simp] theorem illegal_setTfault_bits (v : Word) : (setBits tfaultMask v).getLsbD 1 = v.getLsbD 1 := by
  rw [setBits_bit _ _ _ (by decide)]; simp [tfaultMask]

@[simp] theorem tfault_setBusy_bits (v : Word) : (setBits busyMask v).getLsbD 2 = v.getLsbD 2 := by
  rw [setBits_bit _ _ _ (by decide)]; simp [busyMask]

@[simp] theorem tfault_clearBusy_bits (v : Word) : (clearBits busyMask v).getLsbD 2 = v.getLsbD 2 := by
  rw [clearBits_bit _ _ _ (by decide)]; simp [busyMask]

@[simp] theorem tfault_setIllegal_bits (v : Word) : (setBits illegalMask v).getLsbD 2 = v.getLsbD 2 := by
  rw [setBits_bit _ _ _ (by decide)]; simp [illegalMask]

@[simp] theorem tfault_setTfault_bits (v : Word) : (setBits tfaultMask v).getLsbD 2 = true := by
  rw [setBits_bit _ _ _ (by decide)]; simp [tfaultMask]

/-! ## Answers -/

theorem State.TransportAnswers.answersFor {s : State} (h : s.TransportAnswers) (n : Nat) : s.AnswersFor n :=
  fun a ha => h a (List.mem_of_mem_take ha)

theorem State.answersFor_zero (s : State) : s.AnswersFor 0 := fun a ha => by simp at ha

/-- The next answer is `done` where the first one, if there is one, is. -/
theorem nextAnswer_done {s : State} : s.nextAnswer = .done ↔ s.AnswersFor 1 := by
  unfold State.nextAnswer State.AnswersFor
  cases s.transport <;> simp

/-- The next answer is `silent` where the first one is. -/
theorem nextAnswer_silent {s : State} : s.nextAnswer = .silent ↔ s.SilentAt 0 := by
  unfold State.nextAnswer State.SilentAt
  cases s.transport <;> simp

/-- Answers to `m` held events and to the `n` after them are answers to all of them. -/
theorem State.AnswersFor.add {s t : State} {m n : Nat} (h : s.AnswersFor m) (ht : t.transport = s.transport.drop m)
    (h' : t.AnswersFor n) : s.AnswersFor (m + n) := by
  intro a ha
  rw [List.take_add, List.mem_append] at ha
  rcases ha with ha | ha
  · exact h a ha
  · exact h' a (by rwa [ht])

/-- Behind the answers to `m` held events, a silent answer to the `n`-th is one to the `m + n`-th. -/
theorem State.AnswersFor.silentAt {s t : State} {m n : Nat} (h : s.AnswersFor m) (ht : t.transport = s.transport.drop m)
    (h' : t.SilentAt n) : s.SilentAt (m + n) := by
  obtain ⟨h1, h2⟩ := h'
  rw [ht] at h1 h2
  rw [List.getElem?_drop] at h2
  have hl : m + n < s.transport.length := (List.getElem?_eq_some_iff.1 h2).1
  refine ⟨?_, h2⟩
  rw [List.take_add, h1, List.replicate_add, List.eq_replicate_of_mem h, List.length_take, Nat.min_eq_left (by omega)]

/-- A silent answer is among those to any more held events. -/
theorem State.SilentAt.not_answersFor {s : State} {m n : Nat} (h : s.SilentAt m) (hmn : m < n) : ¬s.AnswersFor n := by
  intro hA
  obtain ⟨hl, he⟩ := List.getElem?_eq_some_iff.1 h.2
  exact absurd (he ▸ hA _ (List.mem_take_iff_getElem.2 ⟨m, by omega, rfl⟩)) (by decide)

/-! ## One critical section -/

/-- The state after a critical section that was answered. -/
def afterCritical (c : Critical) (s : State) : State :=
  { s with
    trace := s.trace ++ c.events
    transport := s.transport.drop c.awaits
    owned := false
    window := none
    pendMad := c.snoop <|> s.pendMad }

/-- The state after a critical section whose DRAIN timed out (R222). -/
def afterTimeout (c : Critical) (s : State) : State :=
  { s with
    trace := s.trace ++ c.events
    transport := s.transport.drop c.awaits
    owned := false
    window := none
    pendMad := none
    status := clearBits busyMask (setBits tfaultMask s.status) }

/-- The state held at a critical section's DRAIN (R223). -/
def heldInDrain (c : Critical) (s : State) : State :=
  { s with
    trace := s.trace ++ (.sel :: c.body ++ (c.settle.map BusEvent.sleep).toList ++ [.drain])
    transport := s.transport.drop c.awaits
    owned := true
    window := c.window
    held := some .drain
    status := setBits busyMask s.status }

/-- The state held at a command step's SLEEP (R223). -/
def heldInSleep (c : Critical) (ms : Word) (s : State) : State :=
  { s with
    trace := s.trace ++ (.sel :: c.body ++ [.sleep ms])
    transport := s.transport.tail
    owned := true
    window := c.window
    held := some .sleep
    status := setBits busyMask s.status }

/-- What a settle time can do. -/
theorem awaitSettle_cases (c : Critical) (s : State) :
    s.AnswersFor (c.awaits - 1) ∧ awaitSettle c.settle s = .running { s with
        trace := s.trace ++ (c.settle.map BusEvent.sleep).toList, transport := s.transport.drop (c.awaits - 1) }
    ∨ ∃ ms, c.settle = some ms ∧ s.SilentAt 0
        ∧ awaitSettle c.settle s = .over (holdForever .sleep (emit (.sleep ms) s).dropAnswer) := by
  cases hc : c.settle with
  | none => left; exact ⟨by simpa [Critical.awaits, hc] using s.answersFor_zero, by simp [awaitSettle, Critical.awaits, hc]⟩
  | some ms =>
    cases ha : s.nextAnswer with
    | done =>
      left
      refine ⟨by simpa [Critical.awaits, hc] using nextAnswer_done.1 ha, ?_⟩
      simp [awaitSettle, awaitSleep, ha, Critical.awaits, hc, emit, State.dropAnswer]
    | silent => right; exact ⟨ms, rfl, nextAnswer_silent.1 ha, by simp [awaitSettle, awaitSleep, ha]⟩

/-- What a DRAIN can do. -/
theorem awaitDrain_cases (s : State) :
    s.AnswersFor 1 ∧ awaitDrain s = .running (emit .drain s).dropAnswer
    ∨ (s.SilentAt 0 ∧ s.cfg.drainTimeout.isSome
        ∧ awaitDrain s = .over (takeTransportFault (emit .drain s).dropAnswer))
    ∨ (s.SilentAt 0 ∧ s.cfg.drainTimeout = none
        ∧ awaitDrain s = .over (holdForever .drain (emit .drain s).dropAnswer)) := by
  rw [← nextAnswer_done, ← nextAnswer_silent]
  unfold awaitDrain
  cases s.nextAnswer <;> cases s.cfg.drainTimeout <;> simp

theorem Critical.awaits_pos (c : Critical) : c.awaits = c.awaits - 1 + 1 := by simp [Critical.awaits]

/-- What one critical section can do, by the answers to its own held events. -/
theorem runCritical_cases (c : Critical) (s : State) :
    (s.AnswersFor c.awaits ∧ runCritical c s = .running (afterCritical c s))
    ∨ (s.SilentAt (c.awaits - 1) ∧ s.cfg.drainTimeout.isSome ∧ runCritical c s = .over (afterTimeout c s))
    ∨ (s.SilentAt (c.awaits - 1) ∧ s.cfg.drainTimeout = none ∧ runCritical c s = .over (heldInDrain c s))
    ∨ (∃ ms, c.settle = some ms ∧ s.SilentAt 0 ∧ runCritical c s = .over (heldInSleep c ms s)) := by
  unfold runCritical
  rcases awaitSettle_cases c (openCritical c s) with ⟨hA, h⟩ | ⟨ms, hms, hn, h⟩
  · rw [h]
    generalize hs1 : ({ openCritical c s with
      trace := (openCritical c s).trace ++ (c.settle.map BusEvent.sleep).toList,
      transport := (openCritical c s).transport.drop (c.awaits - 1) } : State) = s1
    have hd : ∀ l : List Answer, (l.drop (c.awaits - 1)).tail = l.drop c.awaits := by
      intro l; rw [List.tail_drop, ← c.awaits_pos]
    have ht : s1.transport = s.transport.drop (c.awaits - 1) := by rw [← hs1]; rfl
    have hcfg : s1.cfg = s.cfg := by rw [← hs1]; rfl
    have hA' : s.AnswersFor (c.awaits - 1) := hA
    simp only [Progress.andThen]
    rcases awaitDrain_cases s1 with ⟨hn, h1⟩ | ⟨hn, htm, h1⟩ | ⟨hn, htm, h1⟩
    · left
      refine ⟨by rw [c.awaits_pos]; exact hA'.add ht hn, ?_⟩
      rw [h1, ← hs1]
      simp [afterCritical, Critical.events, closeCritical, emitDesel, emit, State.dropAnswer, openCritical,
        emitAll, emitSel, hd]
    · right; left
      refine ⟨hA'.silentAt ht hn, hcfg ▸ htm, ?_⟩
      rw [h1, ← hs1]
      simp [afterTimeout, Critical.events, takeTransportFault, endRequest, State.clearBusy, State.setTfault,
        emitDesel, emit, State.dropAnswer, openCritical, emitAll, emitSel, hd]
    · right; right; left
      refine ⟨hA'.silentAt ht hn, hcfg ▸ htm, ?_⟩
      rw [h1, ← hs1]
      simp [heldInDrain, holdForever, State.setBusy, emit, State.dropAnswer, openCritical, emitAll, emitSel, hd]
  · right; right; right
    refine ⟨ms, hms, hn, ?_⟩
    rw [h]
    simp [Progress.andThen, heldInSleep, holdForever, State.setBusy, emit, State.dropAnswer, openCritical, emitAll, emitSel]

/-! ## Critical sections in order -/

/-- How many answers a list of critical sections takes. -/
def awaitsOf (cs : List Critical) : Nat := (cs.map Critical.awaits).sum

/-- The pending madctl after a list of critical sections. -/
def lastSnoop (p : Option Byte) (cs : List Critical) : Option Byte := cs.foldl (fun p c => c.snoop <|> p) p

/-- The state after a list of critical sections that were all answered. -/
def afterAll (cs : List Critical) (s : State) : State := cs.foldl (fun t c => afterCritical c t) s

@[simp] theorem afterAll_nil (s : State) : afterAll [] s = s := rfl
@[simp] theorem afterAll_cons (c : Critical) (cs : List Critical) (s : State) :
    afterAll (c :: cs) s = afterAll cs (afterCritical c s) := rfl

@[simp] theorem eventsOf_nil : eventsOf [] = [] := rfl
@[simp] theorem eventsOf_cons (c : Critical) (cs : List Critical) : eventsOf (c :: cs) = c.events ++ eventsOf cs := rfl
@[simp] theorem eventsOf_append (as bs : List Critical) : eventsOf (as ++ bs) = eventsOf as ++ eventsOf bs := by
  simp [eventsOf]
@[simp] theorem awaitsOf_nil : awaitsOf [] = 0 := rfl
@[simp] theorem awaitsOf_cons (c : Critical) (cs : List Critical) : awaitsOf (c :: cs) = c.awaits + awaitsOf cs := by
  simp [awaitsOf]
@[simp] theorem awaitsOf_append (as bs : List Critical) : awaitsOf (as ++ bs) = awaitsOf as + awaitsOf bs := by
  simp [awaitsOf]

theorem events_ne_nil (c : Critical) : c.events ≠ [] := by simp [Critical.events]

theorem eventsOf_isEmpty (cs : List Critical) : (eventsOf cs).isEmpty = cs.isEmpty := by
  cases cs with
  | nil => rfl
  | cons c cs => simp [Critical.events]

/-- The whole state after answered critical sections, in closed form. -/
theorem afterAll_eq (cs : List Critical) (s : State) :
    afterAll cs s = { s with
      trace := s.trace ++ eventsOf cs
      transport := s.transport.drop (awaitsOf cs)
      owned := s.owned && cs.isEmpty
      window := if cs.isEmpty then s.window else none
      pendMad := lastSnoop s.pendMad cs } := by
  induction cs generalizing s with
  | nil => simp [lastSnoop]
  | cons c cs ih =>
    rw [afterAll_cons, ih]
    simp [afterCritical, lastSnoop]

/-- What a list of critical sections can do, by the answers to its own held events: all answered, or answered up to the first that
is silent, where it is over. -/
theorem runAll_cases (cs : List Critical) (s : State) :
    (s.AnswersFor (awaitsOf cs) ∧ runAll cs s = .running (afterAll cs s))
    ∨ ∃ pre c post, cs = pre ++ c :: post ∧
      ((s.SilentAt (awaitsOf pre + (c.awaits - 1)) ∧ s.cfg.drainTimeout.isSome
          ∧ runAll cs s = .over (afterTimeout c (afterAll pre s)))
      ∨ (s.SilentAt (awaitsOf pre + (c.awaits - 1)) ∧ s.cfg.drainTimeout = none
          ∧ runAll cs s = .over (heldInDrain c (afterAll pre s)))
      ∨ (∃ ms, c.settle = some ms ∧ s.SilentAt (awaitsOf pre)
          ∧ runAll cs s = .over (heldInSleep c ms (afterAll pre s)))) := by
  induction cs generalizing s with
  | nil => left; exact ⟨s.answersFor_zero, rfl⟩
  | cons c cs ih =>
    simp only [runAll]
    rcases runCritical_cases c s with ⟨hA, h⟩ | ⟨hn, ht, h⟩ | ⟨hn, ht, h⟩ | ⟨ms, hms, hn, h⟩
    · rw [h]
      simp only [Progress.andThen]
      rcases ih (afterCritical c s) with ⟨hA2, h2⟩ | ⟨pre, d, post, hcs, h2⟩
      · left; exact ⟨by rw [awaitsOf_cons]; exact hA.add rfl hA2, h2⟩
      · right
        refine ⟨c :: pre, d, post, by rw [hcs]; rfl, ?_⟩
        rw [awaitsOf_cons, Nat.add_assoc]
        rcases h2 with ⟨hn, ht, h2⟩ | ⟨hn, ht, h2⟩ | ⟨ms, hms, hn, h2⟩
        · exact Or.inl ⟨hA.silentAt rfl hn, ht, h2⟩
        · exact Or.inr (Or.inl ⟨hA.silentAt rfl hn, ht, h2⟩)
        · exact Or.inr (Or.inr ⟨ms, hms, hA.silentAt rfl hn, h2⟩)
    · right
      refine ⟨[], c, cs, rfl, Or.inl ⟨by simpa using hn, ht, ?_⟩⟩
      rw [h]; rfl
    · right
      refine ⟨[], c, cs, rfl, Or.inr (Or.inl ⟨by simpa using hn, ht, ?_⟩)⟩
      rw [h]; rfl
    · right
      refine ⟨[], c, cs, rfl, Or.inr (Or.inr ⟨ms, hms, hn, ?_⟩)⟩
      rw [h]; rfl

/-! ## A whole request -/

/-- What a request can do, by the answers to its own held events: commit after all its sections, or be over at the first silent
one with nothing committed. -/
theorem perform_cases (cs : List Critical) (commit : State → State) (s : State) :
    (s.AnswersFor (awaitsOf cs) ∧ perform cs commit s = endRequest (commit (afterAll cs { s with pendMad := none })))
    ∨ ∃ pre c post, cs = pre ++ c :: post ∧
      ((s.SilentAt (awaitsOf pre + (c.awaits - 1)) ∧ s.cfg.drainTimeout.isSome
          ∧ perform cs commit s = afterTimeout c (afterAll pre { s with pendMad := none }))
      ∨ (s.SilentAt (awaitsOf pre + (c.awaits - 1)) ∧ s.cfg.drainTimeout = none
          ∧ perform cs commit s = heldInDrain c (afterAll pre { s with pendMad := none }))
      ∨ (∃ ms, c.settle = some ms ∧ s.SilentAt (awaitsOf pre)
          ∧ perform cs commit s = heldInSleep c ms (afterAll pre { s with pendMad := none }))) := by
  unfold perform
  rcases runAll_cases cs { s with pendMad := none } with ⟨hA, h⟩ | ⟨pre, c, post, hcs, h⟩
  · left; exact ⟨hA, by rw [h]⟩
  · right
    refine ⟨pre, c, post, hcs, ?_⟩
    rcases h with ⟨hn, ht, h⟩ | ⟨hn, ht, h⟩ | ⟨ms, hms, hn, h⟩
    · exact Or.inl ⟨hn, ht, by rw [h]⟩
    · exact Or.inr (Or.inl ⟨hn, ht, by rw [h]⟩)
    · exact Or.inr (Or.inr ⟨ms, hms, hn, by rw [h]⟩)

/-- The held event a section is over at is one of the held events of the whole list. -/
theorem awaitsOf_lt {pre post : List Critical} {c : Critical} : awaitsOf pre + (c.awaits - 1) < awaitsOf (pre ++ c :: post) := by
  have := c.awaits_pos
  simp only [awaitsOf_append, awaitsOf_cons]
  omega

/-- A request whose own held events are all answered, whatever the answers behind them are. -/
theorem perform_answersFor (cs : List Critical) (commit : State → State) (s : State) (h : s.AnswersFor (awaitsOf cs)) :
    perform cs commit s = endRequest (commit (afterAll cs { s with pendMad := none })) := by
  rcases perform_cases cs commit s with ⟨-, h1⟩ | ⟨pre, c, post, rfl, h1⟩
  · exact h1
  · have hlt := @awaitsOf_lt pre post c
    rcases h1 with ⟨hn, -⟩ | ⟨hn, -⟩ | ⟨ms, -, hn, -⟩
    · exact absurd h (hn.not_answersFor hlt)
    · exact absurd h (hn.not_answersFor hlt)
    · exact absurd h (hn.not_answersFor (by omega))

theorem perform_answered (cs : List Critical) (commit : State → State) (s : State) (h : s.TransportAnswers) :
    perform cs commit s = endRequest (commit (afterAll cs { s with pendMad := none })) :=
  perform_answersFor cs commit s (h.answersFor _)

/-- A request with no bus event ends in its commit, whatever the transport does. -/
theorem performRegs_eq (commit : State → State) (s : State) :
    performRegs commit s = endRequest (commit { s with pendMad := none }) := rfl

end Sys2Proof.Machine
end

