-- ==== Sys2Proof/Laws/Sections.lean ====
section
/-!
SUPPORT. The critical sections of every primitive: their bodies carry commands and data only, and their events are those the
spec lists. With them, what a request that writes no register does when its awaits are answered.
-/

namespace Sys2Proof.Machine

/-! ## Bodies carry commands and data only -/

/-- An event that neither opens, closes nor holds a critical section. -/
def BusEvent.isPayload : BusEvent → Bool
  | .cmd _ => true
  | .d8 _ => true
  | .d16 _ => true
  | .sel | .desel | .drain | .sleep _ => false

/-- The body of the section is commands and data. -/
def Critical.Payload (c : Critical) : Prop := ∀ ev ∈ c.body, ev.isPayload = true

/-- Every section of the list has a body of commands and data. -/
def AllPayload (cs : List Critical) : Prop := ∀ c ∈ cs, c.Payload

theorem AllPayload.nil : AllPayload [] := by simp [AllPayload]

theorem AllPayload.append {as bs : List Critical} (ha : AllPayload as) (hb : AllPayload bs) : AllPayload (as ++ bs) := by
  intro c hc
  rcases List.mem_append.mp hc with h | h
  · exact ha c h
  · exact hb c h

theorem AllPayload.flatMap {α : Type} {l : List α} {f : α → List Critical} (h : ∀ a ∈ l, AllPayload (f a)) :
    AllPayload (l.flatMap f) := by
  intro c hc
  obtain ⟨a, ha, hca⟩ := List.mem_flatMap.mp hc
  exact h a ha c hca

theorem AllPayload.drawIf {b : Bool} {cs : List Critical} (h : AllPayload cs) : AllPayload (drawIf b cs) := by
  unfold Machine.drawIf; split
  · exact h
  · exact AllPayload.nil

theorem payload_words (ws : List Word) : ∀ ev ∈ ws.map BusEvent.d16, ev.isPayload = true := by
  intro ev h
  obtain ⟨w, -, rfl⟩ := List.mem_map.mp h
  rfl

theorem payload_bytes (bs : List Byte) : ∀ ev ∈ bs.map BusEvent.d8, ev.isPayload = true := by
  intro ev h
  obtain ⟨w, -, rfl⟩ := List.mem_map.mp h
  rfl

theorem commandStep_payload (cfg : Config) (op : Byte) (args : List Byte) (d : Option Word) :
    (commandStep cfg op args d).Payload := by
  intro ev h
  rcases List.mem_cons.mp h with rfl | h
  · rfl
  · exact payload_bytes args ev h

theorem setWindow_payload (cfg : Config) (a b c d : Word) : ∀ ev ∈ setWindow cfg a b c d, ev.isPayload = true := by
  intro ev h
  simp only [setWindow, List.mem_cons, List.not_mem_nil, or_false] at h
  rcases h with rfl | rfl | rfl | rfl | rfl | rfl | rfl <;> rfl

theorem windowBurst_payload (s : State) (w : Window) (ws : List Word) : (windowBurst s w ws).Payload := by
  intro ev h
  rcases List.mem_append.mp h with h | h
  · exact setWindow_payload _ _ _ _ _ ev h
  · exact payload_words ws ev h

theorem glyphFast_payload (s : State) (x y : Int) (fg bg : Word) (cols : List Byte) : (glyphFast s x y fg bg cols).Payload := by
  intro ev h
  simp only [glyphFast, List.mem_append] at h
  rcases h with ((h | h) | h) | h
  · simp only [List.mem_cons, List.not_mem_nil, or_false] at h
    rcases h with rfl | rfl <;> rfl
  · exact setWindow_payload _ _ _ _ _ ev h
  · exact payload_words _ ev h
  · simp only [List.mem_cons, List.not_mem_nil, or_false] at h
    rcases h with rfl | rfl <;> rfl

theorem AllPayload.single {c : Critical} (h : c.Payload) : AllPayload [c] := by
  intro d hd
  rw [List.mem_singleton.mp hd]; exact h

theorem solid_payload (s : State) (x y w h : Int) (c : Word) : AllPayload (solid s x y w h c) := by
  unfold solid; split
  · exact AllPayload.nil
  · exact AllPayload.single (windowBurst_payload _ _ _)

theorem pixel_payload (s : State) (x y : Int) (c : Word) : AllPayload (pixel s x y c) := by
  unfold pixel; split
  · exact AllPayload.single (windowBurst_payload _ _ _)
  · exact AllPayload.nil

theorem hline_payload (s : State) (x y w : Int) (c : Word) : AllPayload (hline s x y w c) := solid_payload _ _ _ _ _ _
theorem vline_payload (s : State) (x y h : Int) (c : Word) : AllPayload (vline s x y h c) := solid_payload _ _ _ _ _ _
theorem fillRect_payload (s : State) (x y w h : Int) (c : Word) : AllPayload (fillRect s x y w h c) := solid_payload _ _ _ _ _ _

theorem rect_payload (s : State) (x y w h : Int) (c : Word) : AllPayload (rect s x y w h c) :=
  (((hline_payload _ _ _ _ _).append (hline_payload _ _ _ _ _)).append (vline_payload _ _ _ _ _)).append
    (vline_payload _ _ _ _ _)

theorem lineRun_payload (s : State) (steep : Bool) (e : Int) (r : Run) (w : Word) : AllPayload (lineRun s steep e r w) := by
  cases steep <;> simp only [lineRun, if_true, Bool.false_eq_true, if_false]
  all_goals
    split
    · exact AllPayload.nil
    · split
      · exact AllPayload.nil
      · exact AllPayload.single (windowBurst_payload _ _ _)

theorem line_payload (s : State) (x0 y0 x1 y1 : Int) (c : Word) : AllPayload (line s x0 y0 x1 y1 c) :=
  AllPayload.flatMap fun _ _ => lineRun_payload _ _ _ _ _

theorem circleStep_payload (s : State) (x0 y0 : Int) (c : Word) (p : Int × Int) : AllPayload (circleStep s x0 y0 c p) := by
  unfold circleStep
  repeat' apply AllPayload.append
  all_goals exact pixel_payload _ _ _ _

theorem circle_payload (s : State) (x0 y0 r : Int) (c : Word) : AllPayload (circle s x0 y0 r c) := by
  unfold circle
  refine AllPayload.append ?_ (AllPayload.flatMap fun _ _ => circleStep_payload _ _ _ _ _)
  repeat' apply AllPayload.append
  all_goals exact pixel_payload _ _ _ _

theorem circleHelper_payload (s : State) (x0 y0 r : Int) (m : BitVec 4) (c : Word) :
    AllPayload (circleHelper s x0 y0 r m c) := by
  unfold circleHelper
  refine AllPayload.append ?_ (AllPayload.flatMap fun _ _ => ?_)
  · repeat' apply AllPayload.append
    all_goals exact AllPayload.drawIf (pixel_payload _ _ _ _)
  · unfold circleHelperStep
    repeat' apply AllPayload.append
    all_goals exact AllPayload.drawIf ((pixel_payload _ _ _ _).append (pixel_payload _ _ _ _))

theorem fillCircleHelper_payload (s : State) (x0 y0 r : Int) (m : BitVec 2) (e : Int) (c : Word) :
    AllPayload (fillCircleHelper s x0 y0 r m e c) := by
  unfold fillCircleHelper
  refine AllPayload.flatMap fun _ _ => ?_
  unfold fillHelperStep
  apply AllPayload.append
  all_goals exact AllPayload.drawIf ((vline_payload _ _ _ _ _).append (vline_payload _ _ _ _ _))

theorem fillCircle_payload (s : State) (x0 y0 r : Int) (c : Word) : AllPayload (fillCircle s x0 y0 r c) :=
  (vline_payload _ _ _ _ _).append (fillCircleHelper_payload _ _ _ _ _ _ _)

theorem roundRect_payload (s : State) (x y w h r : Int) (c : Word) : AllPayload (roundRect s x y w h r c) := 
  (((((((hline_payload _ _ _ _ _).append (hline_payload _ _ _ _ _)).append (vline_payload _ _ _ _ _)).append
    (vline_payload _ _ _ _ _)).append (circleHelper_payload _ _ _ _ _ _)).append (circleHelper_payload _ _ _ _ _ _)).append
    (circleHelper_payload _ _ _ _ _ _)).append (circleHelper_payload _ _ _ _ _ _)

theorem fillRoundRect_payload (s : State) (x y w h r : Int) (c : Word) : AllPayload (fillRoundRect s x y w h r c) :=
  ((fillRect_payload _ _ _ _ _ _).append (fillCircleHelper_payload _ _ _ _ _ _ _)).append
    (fillCircleHelper_payload _ _ _ _ _ _ _)

theorem triangle_payload (s : State) (x0 y0 x1 y1 x2 y2 : Int) (c : Word) : AllPayload (triangle s x0 y0 x1 y1 x2 y2 c) :=
  ((line_payload _ _ _ _ _ _).append (line_payload _ _ _ _ _ _)).append (line_payload _ _ _ _ _ _)

theorem scanSpan_payload (s : State) (a b y : Int) (c : Word) : AllPayload (scanSpan s a b y c) := by
  unfold scanSpan; split <;> exact hline_payload _ _ _ _ _

theorem scanEdges_payload (s : State) (c : Word) (xa dxa dya xb dxb dyb : Int) (n : Nat) (y sa sb : Int) :
    AllPayload (scanEdges s c xa dxa dya xb dxb dyb n y sa sb) := by
  induction n generalizing y sa sb with
  | zero => exact AllPayload.nil
  | succ n ih => exact (scanSpan_payload _ _ _ _ _).append (ih _ _ _)

theorem fillSorted_payload (s : State) (p0 p1 p2 : Vertex) (c : Word) : AllPayload (fillSorted s p0 p1 p2 c) :=
  (scanEdges_payload _ _ _ _ _ _ _ _ _ _ _ _).append (scanEdges_payload _ _ _ _ _ _ _ _ _ _ _ _)

theorem fillTriangle_payload (s : State) (x0 y0 x1 y1 x2 y2 : Int) (c : Word) :
    AllPayload (fillTriangle s x0 y0 x1 y1 x2 y2 c) := by
  unfold fillTriangle
  simp only
  split
  · exact hline_payload _ _ _ _ _
  · exact fillSorted_payload _ _ _ _ _

theorem bitmapBlit_payload (s : State) (x y w h : Int) (c : Word) (a : Nat) : AllPayload (bitmapBlit s x y w h c a) := by
  unfold bitmapBlit
  split
  · exact AllPayload.nil
  · refine AllPayload.flatMap fun _ _ => AllPayload.flatMap fun _ _ => ?_
    split
    · exact pixel_payload _ _ _ _
    · exact AllPayload.nil

theorem dot_payload (s : State) (x y : Int) (i j : Nat) (sc : Byte) (c : Word) : AllPayload (dot s x y i j sc c) := by
  unfold dot; split
  · exact pixel_payload _ _ _ _
  · exact fillRect_payload _ _ _ _ _ _

theorem glyphGeneral_payload (s : State) (x y : Int) (fg bg : Word) (sc : Byte) (cols : List Byte) :
    AllPayload (glyphGeneral s x y fg bg sc cols) := by
  refine AllPayload.flatMap fun _ _ => ?_
  split
  · exact dot_payload _ _ _ _ _ _ _
  · split
    · exact dot_payload _ _ _ _ _ _ _
    · exact AllPayload.nil

theorem drawChar_payload (s : State) (x y : Int) (fg bg : Word) (sraw code : Byte) (g : Bool) :
    AllPayload (drawChar s x y fg bg sraw code g) := by
  unfold drawChar
  simp only
  split
  · exact AllPayload.single (glyphFast_payload _ _ _ _ _ _)
  · exact glyphGeneral_payload _ _ _ _ _ _ _

theorem textSections_payload (s : State) (code : Byte) : AllPayload (textSections s code) := by
  unfold textSections
  split
  · exact drawChar_payload _ _ _ _ _ _ _ _
  · exact AllPayload.nil

theorem tableSteps_payload (cfg : Config) (t : Fin 5) : AllPayload (tableSteps cfg t) := by
  intro c hc
  obtain ⟨st, -, rfl⟩ := List.mem_map.mp hc
  exact commandStep_payload _ _ _ _

theorem initSteps_payload (cfg : Config) (v : BitVec 2) : AllPayload (initSteps cfg v) := by
  refine AllPayload.append (AllPayload.flatMap fun _ _ => tableSteps_payload _ _) ?_
  cases (variantCfg cfg v).postMadctl with
  | none => exact AllPayload.nil
  | some m => exact AllPayload.single (commandStep_payload _ _ _ _)

/-! ## Counting the awaits -/

@[simp] theorem awaitCount_nil : awaitCount [] = 0 := rfl

@[simp] theorem awaitCount_append (as bs : List BusEvent) : awaitCount (as ++ bs) = awaitCount as + awaitCount bs := by
  simp [awaitCount]

theorem awaitCount_payload (evs : List BusEvent) (h : ∀ ev ∈ evs, ev.isPayload = true) : awaitCount evs = 0 := by
  induction evs with
  | nil => rfl
  | cons ev evs ih =>
    have h1 := h ev (by simp)
    have h2 := ih fun e he => h e (by simp [he])
    cases ev <;> simp_all [awaitCount, BusEvent.isPayload]

theorem awaitCount_events (c : Critical) (h : c.Payload) : awaitCount c.events = c.awaits := by
  have h0 := awaitCount_payload c.body h
  have : c.events = [.sel] ++ c.body ++ (c.settle.map BusEvent.sleep).toList ++ [.drain, .desel] := rfl
  rw [this]
  simp only [awaitCount_append, h0]
  cases hs : c.settle <;> simp [awaitCount, Critical.awaits, hs]

theorem awaitCount_eventsOf (cs : List Critical) (h : AllPayload cs) : awaitCount (eventsOf cs) = awaitsOf cs := by
  induction cs with
  | nil => rfl
  | cons c cs ih =>
    rw [eventsOf_cons, awaitCount_append, awaitsOf_cons, awaitCount_events c (h c (by simp)),
      ih fun d hd => h d (by simp [hd])]

/-- A request that writes no register, its awaits answered. -/
theorem performBus_answered (cs : List Critical) (s : State) (hp : AllPayload cs) (h : s.TransportAnswers) :
    performBus cs s = s.afterBus (eventsOf cs) := by
  unfold performBus
  rw [perform_answered cs id s h, afterAll_eq]
  simp [State.afterBus, endRequest, State.clearBusy, eventsOf_isEmpty, awaitCount_eventsOf cs hp]

/-- A request that emits no bus event, whatever the transport does. -/
theorem performRegs_afterBus (commit : State → State) (s : State) :
    performRegs commit s = endRequest (commit { s with pendMad := none }) := rfl

/-! ## The events of the primitives -/

theorem colw_plain (s : State) (c : Word) : colw s c .plain = plainWord s c := by
  simp [colw, swaps, plainWord]

theorem colw_hv (s : State) (c : Word) : colw s c .hv = hvWord s c := by
  simp [colw, swaps, hvWord]

theorem commandStep_events (cfg : Config) (op : Byte) (args : List Byte) (d : Option Word) :
    (commandStep cfg op args d).events = commandEvents op args d := by
  cases d <;> simp [Critical.events, commandStep, commandEvents, delayMs]

theorem windowBurst_events (s : State) (x0 y0 x1 y1 : Int) (ws : List Word) :
    (windowBurst s ⟨x0, y0, x1, y1⟩ ws).events = burstEvents s x0 y0 x1 y1 ws := by
  simp [Critical.events, windowBurst, burstEvents, setWindow, sentCol, sentRow]

theorem onScreen_iff (s : State) (x y : Int) :
    onScreen s x y = true ↔ 0 ≤ x ∧ x < (s.ds.width.toNat : Int) ∧ 0 ≤ y ∧ y < (s.ds.height.toNat : Int) := by
  simp only [onScreen, Bool.and_eq_true, decide_eq_true_eq]
  simp only [screenW, screenH, and_assoc]

theorem pixel_events (s : State) (x y : Int) (c : Word) :
    eventsOf (pixel s x y c) = pixelEvents s x y (plainWord s c) := by
  unfold pixel pixelEvents
  rw [← colw_plain]
  by_cases h : onScreen s x y = true
  · rw [if_pos h, if_pos ((onScreen_iff s x y).mp h), eventsOf_cons, windowBurst_events]
    simp
  · rw [if_neg h, if_neg (mt (onScreen_iff s x y).mpr h)]
    rfl

theorem Window.area_eq (a b c d : Int) (h1 : a ≤ c) (_h2 : b ≤ d) :
    Window.area ⟨a, b, c, d⟩ = ((c - a + 1) * (d - b + 1)).toNat := by
  simp only [Window.area, spanLen]
  rw [Int.toNat_mul (by omega) (by omega)]

theorem clip_eq (s : State) (x y w h : Int) :
    clip s x y w h =
      if 0 < w ∧ 0 < h ∧ max x 0 ≤ min (x + w - 1) ((s.ds.width.toNat : Int) - 1)
          ∧ max y 0 ≤ min (y + h - 1) ((s.ds.height.toNat : Int) - 1) then
        some ⟨max x 0, max y 0, min (x + w - 1) ((s.ds.width.toNat : Int) - 1), min (y + h - 1) ((s.ds.height.toNat : Int) - 1)⟩
      else none := by
  unfold clip screenW screenH
  simp only
  by_cases h1 : w ≤ 0 ∨ h ≤ 0
  · rw [if_pos h1, if_neg (by omega)]
  · rw [if_neg h1]
    by_cases h2 : max x 0 > min (x + w - 1) ((s.ds.width.toNat : Int) - 1)
        ∨ max y 0 > min (y + h - 1) ((s.ds.height.toNat : Int) - 1)
    · rw [if_pos h2, if_neg (by omega)]
    · rw [if_neg h2, if_pos (by omega)]

theorem solid_events (s : State) (x y w h : Int) (c : Word) : eventsOf (solid s x y w h c) = solidEvents s x y w h c := by
  unfold solid solidEvents
  rw [clip_eq]
  simp only
  by_cases h1 : 0 < w ∧ 0 < h ∧ max x 0 ≤ min (x + w - 1) ((s.ds.width.toNat : Int) - 1)
      ∧ max y 0 ≤ min (y + h - 1) ((s.ds.height.toNat : Int) - 1)
  · rw [if_pos h1, if_pos h1]
    simp only
    rw [eventsOf_cons, windowBurst_events, Window.area_eq _ _ _ _ h1.2.2.1 h1.2.2.2]
    simp
  · rw [if_neg h1, if_neg h1]
    rfl

theorem hline_events (s : State) (x y w : Int) (c : Word) :
    eventsOf (hline s x y w c) = solidEvents s x y w 1 (hvWord s c) := by
  rw [← colw_hv]; exact solid_events _ _ _ _ _ _

theorem vline_events (s : State) (x y h : Int) (c : Word) :
    eventsOf (vline s x y h c) = solidEvents s x y 1 h (hvWord s c) := by
  rw [← colw_hv]; exact solid_events _ _ _ _ _ _

theorem fillRect_events (s : State) (x y w h : Int) (c : Word) :
    eventsOf (fillRect s x y w h c) = solidEvents s x y w h (plainWord s c) := by
  rw [← colw_plain]; exact solid_events _ _ _ _ _ _

theorem eventsOf_flatMap {α : Type} (l : List α) (f : α → List Critical) :
    eventsOf (l.flatMap f) = l.flatMap (fun a => eventsOf (f a)) := by
  induction l with
  | nil => rfl
  | cons a l ih => simp [List.flatMap_cons, ih]

theorem eventsOf_drawIf (b : Bool) (cs : List Critical) : eventsOf (drawIf b cs) = if b then eventsOf cs else [] := by
  unfold drawIf; split <;> rfl

/-- A run of a line is the one burst the spec lists, or nothing. -/
theorem lineRun_events (s : State) (st : Bool) (e : Int) (r : Run) (w : Word) :
    eventsOf (lineRun s st e r w) = runEvents s st e r w := by
  unfold lineRun runEvents screenW screenH
  cases st <;> simp only [if_true, Bool.false_eq_true, if_false]
  · by_cases h1 : 0 ≤ r.m ∧ r.m < (s.ds.height.toNat : Int)
    · rw [if_neg (by omega)]
      by_cases h3 : max r.a 0 > min r.b ((s.ds.width.toNat : Int) - 1)
      · rw [if_pos h3, if_neg (by omega)]; rfl
      · rw [if_neg h3, if_pos (by omega), eventsOf_cons, windowBurst_events]; simp [spanLen]
    · rw [if_pos h1, if_neg (by omega)]; rfl
  · by_cases h1 : 0 ≤ r.m ∧ r.m < (s.ds.width.toNat : Int)
    · rw [if_neg (by omega)]
      by_cases h3 : max r.a 0 > min r.b ((s.ds.height.toNat : Int) - 1)
      · rw [if_pos h3, if_neg (by omega)]; rfl
      · rw [if_neg h3, if_pos (by omega), eventsOf_cons, windowBurst_events]; simp [spanLen]
    · rw [if_pos h1, if_neg (by omega)]; rfl

theorem line_events (s : State) (x0 y0 x1 y1 : Int) (c : Word) :
    eventsOf (line s x0 y0 x1 y1 c) = (runsOf (linePixels x0 y0 x1 y1).pts).flatMap fun r =>
      runEvents s (linePixels x0 y0 x1 y1).steep (linePixels x0 y0 x1 y1).xEnd r (plainWord s c) := by
  simp only [line, eventsOf_flatMap, lineRun_events, colw_plain]

theorem circle_events (s : State) (x0 y0 r : Int) (c : Word) :
    eventsOf (circle s x0 y0 r c) = pixelsEvents s (circlePixels x0 y0 r) c := by
  simp [circle, pixelsEvents, circlePixels, eventsOf_append, eventsOf_flatMap, circleStep, pixel_events, List.flatMap_assoc]

theorem flatMap_ite {α β : Type} (p : Prop) [Decidable p] (l : List α) (f : α → List β) :
    List.flatMap f (if p then l else []) = if p then l.flatMap f else [] := by
  split <;> rfl

theorem circleHelper_events (s : State) (x0 y0 r : Int) (m : BitVec 4) (c : Word) :
    eventsOf (circleHelper s x0 y0 r m c) = pixelsEvents s (helperPixels m.toNat x0 y0 r) c := by
  have h1 : (quadLR m || quadLL m) = decide (m.toNat &&& 0xC ≠ 0) := by revert m; decide
  have h2 : (quadUL m || quadUR m) = decide (m.toNat &&& 0x3 ≠ 0) := by revert m; decide
  have h3 : (quadUR m || quadLR m) = decide (m.toNat &&& 0x6 ≠ 0) := by revert m; decide
  have h4 : (quadUL m || quadLL m) = decide (m.toNat &&& 0x9 ≠ 0) := by revert m; decide
  have h5 : (quadLR m) = decide (m.toNat &&& 4 ≠ 0) := by revert m; decide
  have h6 : (quadUR m) = decide (m.toNat &&& 2 ≠ 0) := by revert m; decide
  have h7 : (quadLL m) = decide (m.toNat &&& 8 ≠ 0) := by revert m; decide
  have h8 : (quadUL m) = decide (m.toNat &&& 1 ≠ 0) := by revert m; decide
  simp only [circleHelper, h1, h2, h3, h4]
  simp only [circleHelperStep, h5, h6, h7, h8, helperPixels, pixelsEvents, eventsOf_append, eventsOf_flatMap, eventsOf_drawIf,
    pixel_events, List.flatMap_append, decide_eq_true_eq, List.flatMap_assoc]
  simp only [flatMap_ite, List.flatMap_cons, List.flatMap_nil, List.append_nil]

theorem fillCircleHelper_events (s : State) (x0 y0 r : Int) (m : BitVec 2) (e : Int) (c : Word) :
    eventsOf (fillCircleHelper s x0 y0 r m e c) = spansEvents s (helperSpans m.toNat x0 y0 r e) c := by
  have h5 : (halfRight m) = decide (m.toNat &&& 1 ≠ 0) := by revert m; decide
  have h6 : (halfLeft m) = decide (m.toNat &&& 2 ≠ 0) := by revert m; decide
  simp only [fillCircleHelper, fillHelperStep, h5, h6, helperSpans, spansEvents, eventsOf_append, eventsOf_flatMap,
    eventsOf_drawIf, vline_events, List.flatMap_append, decide_eq_true_eq, List.flatMap_assoc]
  simp only [flatMap_ite, List.flatMap_cons, List.flatMap_nil, List.append_nil]

/-- The events of command steps, in order. -/
theorem commandSteps_events (cfg : Config) (steps : List CmdStep) :
    eventsOf (steps.map fun st => commandStep cfg st.opcode st.args st.delay)
      = steps.flatMap fun st => commandEvents st.opcode st.args st.delay := by
  induction steps with
  | nil => rfl
  | cons st l ih => simp [ih, commandStep_events]

/-- The madctl snoop of command steps (R84): the first argument of the last MADCTL step that has one. -/
theorem lastSnoop_commandSteps (cfg : Config) (steps : List CmdStep) (p : Option Byte) :
    lastSnoop p (steps.map fun st => commandStep cfg st.opcode st.args st.delay)
      = ((steps.filterMap fun st => if st.opcode = cfg.opMadctl then st.args.head? else none).getLast?).or p := by
  induction steps generalizing p with
  | nil => rfl
  | cons st l ih =>
    simp only [List.map_cons, lastSnoop, List.foldl_cons] at ih ⊢
    rw [ih]
    simp only [commandStep, List.filterMap_cons]
    rcases h : (if st.opcode = cfg.opMadctl then st.args.head? else none) with _ | m
    · simp
    · cases hl : (List.filterMap (fun st => if st.opcode = cfg.opMadctl then st.args.head? else none) l) with
      | nil => simp
      | cons a l' => simp [List.getLast?_cons]

/-- A request whose awaits are all answered: its events, its awaits, then its commit and its end. -/
theorem perform_answered_eq (cs : List Critical) (commit : State → State) (s : State) (h : s.TransportAnswers)
    (hp : AllPayload cs) :
    perform cs commit s = endRequest (commit { s with
      pendMad := lastSnoop none cs
      window := if cs.isEmpty then s.window else none
      owned := s.owned && (eventsOf cs).isEmpty
      trace := s.trace ++ eventsOf cs
      transport := s.transport.drop (awaitCount (eventsOf cs)) }) := by
  rw [perform_answered cs commit s h, afterAll_eq]
  simp [eventsOf_isEmpty, awaitCount_eventsOf cs hp]

end Sys2Proof.Machine
end

