-- ==== Sys2Proof/Laws/Exec.lean ====
section
/-!
SUPPORT. What every request does, said once: its critical sections, its commit, and what each of them can change. Statements
about all requests follow from `exec_eq` and `perform_cases`.
-/

namespace Sys2Proof.Machine

/-- The critical sections of a well-formed request, from the state before it (R226). -/
def sectionsOf (i : Instr) (s : State) : List Critical :=
  match i with
  | .nop => []
  | .init v => initSteps s.cfg v
  | .runTable t => if h : t.toNat < 5 then tableSteps s.cfg ⟨t.toNat, h⟩ else []
  | .setRotation r => [commandStep s.cfg s.cfg.opMadctl [rotMadctl s.cfg s.ds.variant (rotationOperand r)] none]
  | .getRotation => []
  | .invert f => [commandStep s.cfg (if f then s.cfg.opInvon else s.cfg.opInvoff) [] none]
  | .getWidth => []
  | .getHeight => []
  | .color565 _ _ _ => []
  | .clearStatus => []
  | .pixel x y c => pixel s (s16 x) (s16 y) c
  | .hline x y w c => hline s (s16 x) (s16 y) (s16 w) c
  | .vline x y h c => vline s (s16 x) (s16 y) (s16 h) c
  | .fillRect x y w h c => fillRect s (s16 x) (s16 y) (s16 w) (s16 h) c
  | .rect x y w h c => rect s (s16 x) (s16 y) (s16 w) (s16 h) c
  | .line x0 y0 x1 y1 c => line s (s16 x0) (s16 y0) (s16 x1) (s16 y1) c
  | .circle x0 y0 r c => circle s (s16 x0) (s16 y0) (s16 r) c
  | .circleHelper m x0 y0 r c => circleHelper s (s16 x0) (s16 y0) (s16 r) m c
  | .fillCircle x0 y0 r c => fillCircle s (s16 x0) (s16 y0) (s16 r) c
  | .fillCircleHelper m x0 y0 r e c => fillCircleHelper s (s16 x0) (s16 y0) (s16 r) m (s16 e) c
  | .roundRect x y w h r c => roundRect s (s16 x) (s16 y) (s16 w) (s16 h) (s16 r) c
  | .fillRoundRect x y w h r c => fillRoundRect s (s16 x) (s16 y) (s16 w) (s16 h) (s16 r) c
  | .triangle x0 y0 x1 y1 x2 y2 c => triangle s (s16 x0) (s16 y0) (s16 x1) (s16 y1) (s16 x2) (s16 y2) c
  | .fillTriangle x0 y0 x1 y1 x2 y2 c => fillTriangle s (s16 x0) (s16 y0) (s16 x1) (s16 y1) (s16 x2) (s16 y2) c
  | .bitmap x y w h c addr => bitmapBlit s (s16 x) (s16 y) (s16 w) (s16 h) c addr.toNat
  | .drawChar g x y fg bg scale code => drawChar s (s16 x) (s16 y) fg bg scale code g
  | .writeChar code => textSections s code
  | .setCursor _ _ => []
  | .setTextColor _ _ => []
  | .setTextScale _ => []
  | .setTextWrap _ => []

/-- The commit of a request, from the state before it (R226). -/
def commitOf (i : Instr) (s : State) : State → State :=
  match i with
  | .nop => id
  | .init v => commitInit v
  | .runTable _ => commitMadctl
  | .setRotation r => commitRotation (rotationOperand r) (rotMadctl s.cfg s.ds.variant (rotationOperand r))
  | .getRotation => respond (s.ds.rotation.setWidth 16)
  | .invert _ => id
  | .getWidth => respond s.ds.width
  | .getHeight => respond s.ds.height
  | .color565 r g b => respond (pack565 r g b)
  | .clearStatus => State.clearSticky
  | .pixel _ _ _ => id
  | .hline _ _ _ _ => id
  | .vline _ _ _ _ => id
  | .fillRect _ _ _ _ _ => id
  | .rect _ _ _ _ _ => id
  | .line _ _ _ _ _ => id
  | .circle _ _ _ _ => id
  | .circleHelper _ _ _ _ _ => id
  | .fillCircle _ _ _ _ => id
  | .fillCircleHelper _ _ _ _ _ _ => id
  | .roundRect _ _ _ _ _ _ => id
  | .fillRoundRect _ _ _ _ _ _ => id
  | .triangle _ _ _ _ _ _ _ => id
  | .fillTriangle _ _ _ _ _ _ _ => id
  | .bitmap _ _ _ _ _ _ => id
  | .drawChar _ _ _ _ _ _ _ => id
  | .writeChar code => commitCursor (textMove s code).cursor
  | .setCursor x y => fun t => { t with ds := { t.ds with cursorX := x, cursorY := y } }
  | .setTextColor fg bg => fun t => { t with ds := { t.ds with textColor := fg, textBg := bg } }
  | .setTextScale sc => fun t => { t with ds := { t.ds with textScale := scaleOf sc } }
  | .setTextWrap f => fun t => { t with ds := { t.ds with wrap := f } }

/-- The other agent's changes of bitmap bytes land during a BITMAP (R50). -/
def settledFor (i : Instr) (s : State) : State :=
  match i with
  | .bitmap _ _ w h _ _ => settleRace (bitmapReads (s16 w) (s16 h)) s
  | .nop | .init _ | .runTable _ | .setRotation _ | .getRotation | .invert _ | .getWidth | .getHeight | .color565 _ _ _
  | .clearStatus | .pixel _ _ _ | .hline _ _ _ _ | .vline _ _ _ _ | .fillRect _ _ _ _ _ | .rect _ _ _ _ _ | .line _ _ _ _ _
  | .circle _ _ _ _ | .circleHelper _ _ _ _ _ | .fillCircle _ _ _ _ | .fillCircleHelper _ _ _ _ _ _ | .roundRect _ _ _ _ _ _
  | .fillRoundRect _ _ _ _ _ _ | .triangle _ _ _ _ _ _ _ | .fillTriangle _ _ _ _ _ _ _ | .drawChar _ _ _ _ _ _ _
  | .writeChar _ | .setCursor _ _ | .setTextColor _ _ | .setTextScale _ | .setTextWrap _ => s

/-- Every well-formed request is its critical sections and its commit. -/
theorem exec_eq (i : Instr) (s : State) (h : i.WellFormed) :
    exec i s = .next (perform (sectionsOf i s) (commitOf i s) (settledFor i s)) := by
  cases i
  case runTable t =>
    have ht : t.toNat < 5 := by simpa [Instr.WellFormed, Instr.wf] using h
    simp only [exec, execRunTable, sectionsOf, commitOf, settledFor, dif_pos ht]
  all_goals rfl

/-- RUN_TABLE with a table id of 5 to 7 takes IllegalRequest. -/
theorem exec_runTable_illegal (t : BitVec 3) (s : State) (h : 5 ≤ t.toNat) :
    exec (.runTable t) s = .next (takeIllegalRequest s) := by
  have ht : ¬t.toNat < 5 := by omega
  simp only [exec, execRunTable, dif_neg ht]

theorem sectionsOf_payload (i : Instr) (s : State) : AllPayload (sectionsOf i s) := by
  cases i
  case init v => exact initSteps_payload _ _
  case runTable t =>
    unfold sectionsOf
    simp only
    split
    · exact tableSteps_payload _ _
    · exact AllPayload.nil
  case setRotation r => exact AllPayload.single (commandStep_payload _ _ _ _)
  case invert f => exact AllPayload.single (commandStep_payload _ _ _ _)
  case pixel => exact pixel_payload _ _ _ _
  case hline => exact hline_payload _ _ _ _ _
  case vline => exact vline_payload _ _ _ _ _
  case fillRect => exact fillRect_payload _ _ _ _ _ _
  case rect => exact rect_payload _ _ _ _ _ _
  case line => exact line_payload _ _ _ _ _ _
  case circle => exact circle_payload _ _ _ _ _
  case circleHelper => exact circleHelper_payload _ _ _ _ _ _
  case fillCircle => exact fillCircle_payload _ _ _ _ _
  case fillCircleHelper => exact fillCircleHelper_payload _ _ _ _ _ _ _
  case roundRect => exact roundRect_payload _ _ _ _ _ _ _
  case fillRoundRect => exact fillRoundRect_payload _ _ _ _ _ _ _
  case triangle => exact triangle_payload _ _ _ _ _ _ _ _
  case fillTriangle => exact fillTriangle_payload _ _ _ _ _ _ _ _
  case bitmap => exact bitmapBlit_payload _ _ _ _ _ _ _
  case drawChar => exact drawChar_payload _ _ _ _ _ _ _ _
  case writeChar => exact textSections_payload _ _
  all_goals exact AllPayload.nil

/-- A request that writes no register and reads no changing memory, its awaits all answered. -/
theorem exec_answered {i : Instr} {s : State} (h : s.TransportAnswers) (hw : i.WellFormed) (hc : commitOf i s = id)
    (hs : settledFor i s = s) : exec i s = .next (s.afterBus (eventsOf (sectionsOf i s))) := by
  rw [exec_eq i s hw, hc, hs]
  exact congrArg _ (performBus_answered _ _ (sectionsOf_payload i s) h)

/-! ## Where the transport answers everything: the same sections, the same commit -/

theorem scanEdges_answered (s : State) (c : Word) (xa dxa dya xb dxb dyb : Int) (n : Nat) (y sa sb : Int) :
    scanEdges s.answered c xa dxa dya xb dxb dyb n y sa sb = scanEdges s c xa dxa dya xb dxb dyb n y sa sb := by
  induction n generalizing y sa sb with
  | zero => rfl
  | succ n ih => simp only [scanEdges, ih]; rfl

theorem fillTriangle_answered (s : State) (x0 y0 x1 y1 x2 y2 : Int) (c : Word) :
    fillTriangle s.answered x0 y0 x1 y1 x2 y2 c = fillTriangle s x0 y0 x1 y1 x2 y2 c := by
  simp only [fillTriangle, fillSorted, scanEdges_answered]
  rfl

/-- The sections of a request do not depend on the transport's answers. -/
theorem sectionsOf_answered (i : Instr) (s : State) : sectionsOf i s.answered = sectionsOf i s := by
  cases i
  case fillTriangle => exact fillTriangle_answered _ _ _ _ _ _ _ _
  all_goals rfl

/-- The commit of a request does not depend on the transport's answers. -/
theorem commitOf_answered (i : Instr) (s : State) : commitOf i s.answered = commitOf i s := by cases i <;> rfl

theorem settledFor_answered (i : Instr) (s : State) : settledFor i s.answered = (settledFor i s).answered := by cases i <;> rfl

/-- A commit writes display registers, the response and, for CLEAR_STATUS, the status; nothing else. -/
theorem commitOf_frame (i : Instr) (s t : State) :
    commitOf i s t = { t with
      ds := (commitOf i s t).ds, resp := (commitOf i s t).resp, status := (commitOf i s t).status } := by
  cases i <;> rfl

/-- Only CLEAR_STATUS's commit writes the status. -/
theorem commitOf_status (i : Instr) (s t : State) (h : i ≠ .clearStatus) : (commitOf i s t).status = t.status := by
  cases i <;> first | rfl | exact absurd rfl h

/-- What one step can do. -/
theorem step_cases {s t : State} (h : step s = .next t) :
    s.held = none ∧
      (t = s
      ∨ (decode s.waiting = .needOperands ∧ s.accepting = true ∧ t = awaitOperands s)
      ∨ (∃ why rest, decode s.waiting = .illegal why rest ∧ s.accepting = true ∧ t = takeIllegalRequest (accept rest s))
      ∨ (∃ i rest, decode s.waiting = .ok i rest ∧ s.accepting = true ∧ exec i (accept rest s) = .next t)) := by
  unfold step at h
  split at h
  · cases h
  · cases h
  · rename_i hh
    refine ⟨hh, ?_⟩
    split at h
    · rename_i ha
      split at h
      · left; cases h; rfl
      · rename_i hd
        right; left; cases h; exact ⟨hd, ha, rfl⟩
      · rename_i why rest hd
        right; right; left; cases h; exact ⟨why, rest, hd, ha, rfl⟩
      · rename_i i rest hd
        right; right; right
        exact ⟨i, rest, hd, ha, h⟩
    · left; cases h; rfl

end Sys2Proof.Machine
end

