-- ==== Sys2Proof/Laws/Host.lean ====
section
/-!
SUPPORT. What the host can read inside a request, said once.
-/

namespace Sys2Proof.Machine

/-- The next step performs a request where it comes to a next state from words that decode to a legal or to an illegal one. -/
theorem requestStep_some {s t : State} :
    requestStep s = some t ↔
      s.accepting = true ∧ step s = .next t
        ∧ ((∃ i rest, decode s.waiting = .ok i rest) ∨ ∃ why rest, decode s.waiting = .illegal why rest) := by
  unfold requestStep
  cases s.accepting <;> cases decode s.waiting <;> cases step s <;> simp

/-- What a host can find inside a request: the old registers with `BUSY = 1` before the commit, the new ones with `BUSY = 1` after it. -/
theorem registersDuring_cases {m : Moment} {s : State} {r : HostRegisters} (h : registersDuring m s = some r) :
    ∃ t, requestStep s = some t ∧
      ((∃ k, m = .sent k ∧ s.trace.length + k ≤ t.trace.length ∧ r = s.setBusy.hostRegisters)
      ∨ (m = .ending ∧ t.busy = false ∧ r = t.setBusy.hostRegisters)) := by
  unfold registersDuring at h
  split at h
  · rename_i t k ht
    split at h
    · rename_i hk
      exact ⟨t, ht, .inl ⟨k, rfl, hk, (Option.some.inj h).symm⟩⟩
    · cases h
  · rename_i t ht
    split at h
    · cases h
    · rename_i hb
      exact ⟨t, ht, .inr ⟨rfl, by simpa using hb, (Option.some.inj h).symm⟩⟩
  · cases h

/-- The status a host reads inside a request: `BUSY` is 1, the fault bits are the state's, the reserved bits are 0. -/
theorem setBusy_statusWord (s : State) :
    s.setBusy.statusWord.getLsbD 0 = true ∧ s.setBusy.statusWord.getLsbD 1 = s.illegal
      ∧ s.setBusy.statusWord.getLsbD 2 = s.tfault ∧ s.setBusy.statusWord.toNat < 8 := by
  have hw : s.setBusy.statusWord = setBits busyMask s.status := by simp [State.statusWord, State.setBusy]
  rw [hw]
  refine ⟨busy_setBusy_bits _, illegal_setBusy_bits _, tfault_setBusy_bits _, ?_⟩
  have := Nat.and_le_right (n := (s.status ||| busyMask).toNat) (m := statusMask.toNat)
  have h7 : statusMask.toNat = 7 := rfl
  simp only [setBits, BitVec.toNat_and] at this ⊢
  omega

/-- The response a host reads inside a request is the old one, or the one the request leaves. -/
theorem hostReadRespDuring_cases {m : Moment} {n : Nat} {s : State} {w : Word} (h : hostReadRespDuring m n s = some w) :
    w = s.resp ∨ (m = .ending ∧ ∃ t, requestStep s = some t ∧ w = t.resp) := by
  obtain ⟨r, hr, rfl⟩ := Option.map_eq_some_iff.1 h
  obtain ⟨t, ht, ⟨k, -, -, rfl⟩ | ⟨hm, -, rfl⟩⟩ := registersDuring_cases hr
  · left; split <;> rfl
  · split
    · right; exact ⟨hm, t, ht, rfl⟩
    · left; rfl

end Sys2Proof.Machine
end

