-- ==== Sys2Proof/Laws/Memory.lean ====
section
/-!
SUPPORT. The laws of the bitmap memory: every operation keeps the canonical form, and a read after a write.
-/

namespace Sys2Proof.Machine

theorem Memory.above_iff (a : Nat) (m : List Host.Cell) : Memory.above a m = true ↔ ∀ c ∈ m, a < c.1 := by
  simp [Memory.above]

theorem Memory.wf_cons (k : Nat) (v : Byte) (m : List Host.Cell) :
    Memory.wf ((k, v) :: m) = true ↔ v ≠ Memory.unlisted ∧ (∀ c ∈ m, k < c.1) ∧ Memory.wf m = true := by
  simp [Memory.wf, Memory.above, and_assoc]

/-- An address below every cell is not listed. -/
theorem Memory.read_below {a : Nat} {m : List Host.Cell} (h : ∀ c ∈ m, a < c.1) : Memory.read m a = Memory.unlisted := by
  induction m with
  | nil => rfl
  | cons c m ih =>
    have hc := h c (by simp)
    rw [Memory.read, if_neg (by omega)]
    exact ih fun d hd => h d (by simp [hd])

/-- The addresses a write can list: the written one and those already there. -/
theorem Memory.write_mem {a : Nat} {b : Byte} {m : List Host.Cell} {c : Host.Cell} (h : c ∈ Memory.write a b m) :
    c.1 = a ∨ ∃ d ∈ m, d.1 = c.1 := by
  induction m with
  | nil =>
    simp only [Memory.write, Memory.cons] at h
    split at h <;> simp_all
  | cons d m ih =>
    simp only [Memory.write, Memory.cons] at h
    split at h
    · split at h
      · exact .inr ⟨c, h, rfl⟩
      · rcases List.mem_cons.mp h with rfl | h
        · exact .inl rfl
        · exact .inr ⟨c, h, rfl⟩
    · split at h
      · split at h
        · exact .inr ⟨c, by simp [h], rfl⟩
        · rcases List.mem_cons.mp h with rfl | h
          · exact .inl rfl
          · exact .inr ⟨c, by simp [h], rfl⟩
      · rcases List.mem_cons.mp h with rfl | h
        · exact .inr ⟨_, by simp, rfl⟩
        · rcases ih h with h | ⟨e, he, h⟩
          · exact .inl h
          · exact .inr ⟨e, by simp [he], h⟩

theorem Memory.cons_wf {a : Nat} {b : Byte} {m : List Host.Cell} (h : ∀ c ∈ m, a < c.1) (hm : Memory.wf m = true) :
    Memory.wf (Memory.cons a b m) = true := by
  unfold Memory.cons
  split
  · exact hm
  · exact (Memory.wf_cons _ _ _).mpr ⟨by assumption, h, hm⟩

/-- A write keeps the canonical form. -/
theorem Memory.write_wf (a : Nat) (b : Byte) {m : List Host.Cell} (h : Memory.wf m = true) :
    Memory.wf (Memory.write a b m) = true := by
  induction m with
  | nil => exact Memory.cons_wf (by simp) rfl
  | cons c m ih =>
    obtain ⟨k, v⟩ := c
    obtain ⟨hv, hk, hm⟩ := (Memory.wf_cons _ _ _).mp h
    unfold Memory.write
    split
    · refine Memory.cons_wf ?_ h
      intro c hc
      rcases List.mem_cons.mp hc with rfl | hc
      · assumption
      · have := hk c hc; omega
    · split
      · rename_i ha; subst ha
        exact Memory.cons_wf hk hm
      · refine (Memory.wf_cons _ _ _).mpr ⟨hv, ?_, ih hm⟩
        intro c hc
        rcases Memory.write_mem hc with h1 | ⟨d, hd, h1⟩
        · omega
        · have := hk d hd; omega

theorem Memory.read_cons {a : Nat} {b : Byte} {m : List Host.Cell} (h : ∀ c ∈ m, a < c.1) (x : Nat) :
    Memory.read (Memory.cons a b m) x = if x = a then b else Memory.read m x := by
  unfold Memory.cons
  split
  · rename_i hb
    by_cases hx : x = a
    · subst hx; rw [if_pos rfl, Memory.read_below h, hb]
    · rw [if_neg hx]
  · rfl

/-- A read after a write: the byte written at its address, what was there everywhere else. -/
theorem Memory.read_write (a : Nat) (b : Byte) {m : List Host.Cell} (h : Memory.wf m = true) (x : Nat) :
    Memory.read (Memory.write a b m) x = if x = a then b else Memory.read m x := by
  induction m with
  | nil => exact Memory.read_cons (by simp) x
  | cons c m ih =>
    obtain ⟨k, v⟩ := c
    obtain ⟨hv, hk, hm⟩ := (Memory.wf_cons _ _ _).mp h
    unfold Memory.write
    split
    · refine Memory.read_cons ?_ x
      intro c hc
      rcases List.mem_cons.mp hc with rfl | hc
      · assumption
      · have := hk c hc; omega
    · split
      · rename_i ha; subst ha
        rw [Memory.read_cons hk]
        by_cases hx : x = a
        · rw [if_pos hx, if_pos hx]
        · rw [if_neg hx, if_neg hx, Memory.read, if_neg hx]
      · rw [Memory.read, Memory.read, ih hm]
        by_cases hx : x = k
        · rw [if_pos hx, if_pos hx, if_neg (by omega)]
        · rw [if_neg hx, if_neg hx]

/-- The host's write keeps the canonical form. -/
theorem hostProvideByte_wf (a : Nat) (b : Byte) {s : State} (h : Memory.wf s.bitmap = true) :
    Memory.wf (hostProvideByte a b s).bitmap = true := Memory.write_wf _ _ h

/-- The landing of another agent's changes keeps the canonical form. -/
theorem settleRace_wf (n : Nat) {s : State} (h : Memory.wf s.bitmap = true) : Memory.wf (settleRace n s).bitmap = true := by
  simp only [settleRace]
  induction s.bitmapRace with
  | nil => exact h
  | cons c m ih => exact Memory.write_wf _ _ ih

/-- The memory after reset is in canonical form. -/
theorem reset_wf : Memory.wf State.reset.bitmap = true := rfl

end Sys2Proof.Machine
end

