-- ==== Sys2Proof/Laws/PerInstr.lean ====
section
/-!
SUPPORT. One lemma per constructor of `Instr`: the head word of a well-formed request's encoding announces exactly the words of
that encoding (R60, R65).
-/

namespace Sys2Proof.Laws.HeadLength

/-- The length the head word announces is the length of the encoding. -/
def Statement (i : Instr) : Prop := i.WellFormed → requestLength ((encode i).headD 0) = (encode i).length

/-- The head word of an 8-bit immediate announces one word. -/
theorem immediate (opc : Byte) (h : opc ∈ [(0x03 : Byte), 0x29, 0x2C]) (b : Byte) : requestLength (headWord opc b) = 1 := by
  simp only [List.mem_cons, List.not_mem_nil, or_false] at h
  rcases h with rfl | rfl | rfl <;> revert b <;> decide +kernel

theorem nop : Statement .nop := fun _ => by decide
theorem init (v) : Statement (.init v) := by intro _; revert v; decide
theorem runTable (t) : Statement (.runTable t) := by unfold Statement; revert t; decide
theorem setRotation (r) : Statement (.setRotation r) := fun _ => immediate 0x03 (by decide) r
theorem getRotation : Statement .getRotation := fun _ => by decide
theorem invert (f) : Statement (.invert f) := by intro _; revert f; decide
theorem getWidth : Statement .getWidth := fun _ => by decide
theorem getHeight : Statement .getHeight := fun _ => by decide
theorem color565 (r g b) : Statement (.color565 r g b) := fun _ => show requestLength 0x0800 = 3 by decide
theorem clearStatus : Statement .clearStatus := fun _ => by decide
theorem pixel (x y c) : Statement (.pixel x y c) := fun _ => show requestLength 0x1000 = 4 by decide
theorem hline (x y w c) : Statement (.hline x y w c) := fun _ => show requestLength 0x1100 = 5 by decide
theorem vline (x y h c) : Statement (.vline x y h c) := fun _ => show requestLength 0x1200 = 5 by decide
theorem fillRect (x y w h c) : Statement (.fillRect x y w h c) := fun _ => show requestLength 0x1300 = 6 by decide
theorem rect (x y w h c) : Statement (.rect x y w h c) := fun _ => show requestLength 0x1400 = 6 by decide
theorem line (x0 y0 x1 y1 c) : Statement (.line x0 y0 x1 y1 c) := fun _ => show requestLength 0x1500 = 6 by decide
theorem circle (x0 y0 r c) : Statement (.circle x0 y0 r c) := fun _ => show requestLength 0x1800 = 5 by decide
theorem circleHelper (m x0 y0 r c) : Statement (.circleHelper m x0 y0 r c) := fun _ =>
  (by decide : ∀ m : BitVec 4, requestLength (headWord 0x19 (m.setWidth 8)) = 5) m
theorem fillCircle (x0 y0 r c) : Statement (.fillCircle x0 y0 r c) := fun _ => show requestLength 0x1A00 = 5 by decide
theorem fillCircleHelper (m x0 y0 r e c) : Statement (.fillCircleHelper m x0 y0 r e c) := fun _ =>
  (by decide : ∀ m : BitVec 2, requestLength (headWord 0x1B (m.setWidth 8)) = 6) m
theorem roundRect (x y w h r c) : Statement (.roundRect x y w h r c) := fun _ => show requestLength 0x1C00 = 7 by decide
theorem fillRoundRect (x y w h r c) : Statement (.fillRoundRect x y w h r c) := fun _ => show requestLength 0x1D00 = 7 by decide
theorem triangle (x0 y0 x1 y1 x2 y2 c) : Statement (.triangle x0 y0 x1 y1 x2 y2 c) := fun _ =>
  show requestLength 0x2000 = 8 by decide
theorem fillTriangle (x0 y0 x1 y1 x2 y2 c) : Statement (.fillTriangle x0 y0 x1 y1 x2 y2 c) := fun _ =>
  show requestLength 0x2100 = 8 by decide
theorem bitmap (x y w h c a) : Statement (.bitmap x y w h c a) := fun _ => show requestLength 0x2200 = 8 by decide
theorem drawChar (g x y fg bg sc code) : Statement (.drawChar g x y fg bg sc code) := fun _ =>
  (by decide : ∀ g : Bool, requestLength (headWord 0x28 ((BitVec.ofBool g).setWidth 8)) = 6) g
theorem writeChar (code) : Statement (.writeChar code) := fun _ => immediate 0x29 (by decide) code
theorem setCursor (x y) : Statement (.setCursor x y) := fun _ => show requestLength 0x2A00 = 3 by decide
theorem setTextColor (fg bg) : Statement (.setTextColor fg bg) := fun _ => show requestLength 0x2B00 = 3 by decide
theorem setTextScale (s) : Statement (.setTextScale s) := fun _ => immediate 0x2C (by decide) s
theorem setTextWrap (f) : Statement (.setTextWrap f) := by intro _; revert f; decide

end Sys2Proof.Laws.HeadLength
end

