-- ==== Sys2Proof/Tests/Slice0.lean ====
section
/-!
SUPPORT. The model's own tests. Expected results are taken from spec/95_test_vectors.md and the examples of the section files;
each test names its source.
-/

namespace Sys2Proof.Tests

open Sys2Proof.Machine

/-! ## Fixtures -/

/-- The fixture font of 95_test_vectors.md: only `'A'` has pixels. -/
def fixtureFont : Vector Glyph 256 :=
  (Vector.replicate 256 #v[0, 0, 0, 0, 0]).set 0x41 #v[0x7C, 0x12, 0x11, 0x12, 0x7C]

/-- The fixture init tables of 95_test_vectors.md. -/
def fixtureTables : Vector (List CmdStep) 5 :=
  #v[[], [⟨0x01, [], some 150⟩], [], [], [⟨0x29, [], some 100⟩]]

/-- The default parameters with the fixture font and tables. -/
def fixtureCfg : Config := { Config.default with font := fixtureFont, initTables := fixtureTables }

/-- The reset state under the fixtures. -/
def st0 : State := State.resetWith fixtureCfg

/-- The reset state under the fixtures with `DRAIN_TIMEOUT = some 5` and a transport that is silent at its `k`-th event. -/
def stTimeout (k : Nat) : State :=
  { State.resetWith { fixtureCfg with drainTimeout := some 5 } with transport := List.replicate k .done ++ [.silent] }

/-- The state a request ends in. -/
def after (i : Instr) (s : State) : State :=
  match exec i s with
  | .next t => t
  | .fault _ => s
  | .refused _ => s

/-- The state one step ends in. -/
def stepped (s : State) : State :=
  match step s with
  | .next t => t
  | .fault _ => s
  | .refused _ => s

/-- The D16 payloads of each critical section of a trace: a window burst's column range, row range and colour words. -/
def payloads (evs : List BusEvent) : List (List Nat) :=
  let rev := evs.foldl (fun acc ev => match ev, acc with
    | .sel, _ => [] :: acc
    | .d16 w, b :: bs => (w.toNat :: b) :: bs
    | _, _ => acc) []
  rev.reverse.map List.reverse

/-- The bursts a request adds to the trace. -/
def drawn (i : Instr) (s : State) : List (List Nat) := payloads (after i s).trace

/-- A one-pixel burst. -/
def px (x y c : Nat) : List Nat := [x, x, y, y, c]

/-! ## Well-formedness -/

/-- R67: a table id of 5 is ill-formed, 4 is not. -/
theorem test_wf_table_id : (Instr.runTable 5).wf = false ∧ (Instr.runTable 7).wf = false ∧ (Instr.runTable 4).wf = true := by
  decide

/-! ## Decoding: words written out from R61, R62, R65 -/

/-- V-ENC-1, 2, 3, 5 and the other control rows. -/
theorem test_decode_control :
    decode [0x0000] = .ok .nop [] ∧ decode [0x0101] = .ok (.init 1) [] ∧ decode [0x0203] = .ok (.runTable 3) []
    ∧ decode [0x03FF] = .ok (.setRotation 255) [] ∧ decode [0x0400] = .ok .getRotation []
    ∧ decode [0x0501] = .ok (.invert true) [] ∧ decode [0x0600] = .ok .getWidth [] ∧ decode [0x0700] = .ok .getHeight []
    ∧ decode [0x0800, 0x1234, 0xFF56] = .ok (.color565 0x12 0x34 0x56) [] ∧ decode [0x0900] = .ok .clearStatus [] := by
  decide

/-- V-ENC-7, 8 and the other line and rectangle rows. -/
theorem test_decode_lines :
    decode [0x1000, 1, 2, 3] = .ok (.pixel 1 2 3) [] ∧ decode [0x1100, 1, 2, 3, 4] = .ok (.hline 1 2 3 4) []
    ∧ decode [0x1200, 1, 2, 3, 4] = .ok (.vline 1 2 3 4) []
    ∧ decode [0x1300, 0x0003, 0x0004, 0x0005, 0x0002, 0x1234] = .ok (.fillRect 3 4 5 2 0x1234) []
    ∧ decode [0x1400, 1, 2, 3, 4, 5] = .ok (.rect 1 2 3 4 5) []
    ∧ decode [0x1500, 0xFFFE, 0x0000, 0x0003, 0x0000, 0x0001] = .ok (.line (-2) 0 3 0 1) [] := by
  decide

/-- V-ENC-9 and the other circle rows. -/
theorem test_decode_circles :
    decode [0x1800, 1, 2, 3, 4] = .ok (.circle 1 2 3 4) []
    ∧ decode [0x190F, 0x000A, 0x000A, 0x0003, 0xF800] = .ok (.circleHelper 0xF 10 10 3 0xF800) []
    ∧ decode [0x1A00, 1, 2, 3, 4] = .ok (.fillCircle 1 2 3 4) []
    ∧ decode [0x1B02, 1, 2, 3, 4, 5] = .ok (.fillCircleHelper 2 1 2 3 4 5) []
    ∧ decode [0x1C00, 1, 2, 3, 4, 5, 6] = .ok (.roundRect 1 2 3 4 5 6) []
    ∧ decode [0x1D00, 1, 2, 3, 4, 5, 6] = .ok (.fillRoundRect 1 2 3 4 5 6) [] := by
  decide

/-- V-ENC-11 and the triangle rows. -/
theorem test_decode_triangles :
    decode [0x2000, 1, 2, 3, 4, 5, 6, 7] = .ok (.triangle 1 2 3 4 5 6 7) []
    ∧ decode [0x2100, 1, 2, 3, 4, 5, 6, 7] = .ok (.fillTriangle 1 2 3 4 5 6 7) []
    ∧ decode [0x2200, 4, 4, 8, 2, 0x001F, 0x1000, 0x0000] = .ok (.bitmap 4 4 8 2 0x001F 0x00001000) []
    ∧ decode [0x2200, 4, 4, 8, 2, 0x001F, 0x1000, 0x0002] = .ok (.bitmap 4 4 8 2 0x001F 0x00021000) [] := by
  decide

/-- V-ENC-12, 13, 14 and the other text rows. -/
theorem test_decode_text :
    decode [0x2800, 10, 20, 0xFFFF, 0x0000, 0x0141] = .ok (.drawChar false 10 20 0xFFFF 0 1 0x41) []
    ∧ decode [0x2801, 10, 20, 0xFFFF, 0x0000, 0x0241] = .ok (.drawChar true 10 20 0xFFFF 0 2 0x41) []
    ∧ decode [0x2941] = .ok (.writeChar 0x41) [] ∧ decode [0x2A00, 1, 2] = .ok (.setCursor 1 2) []
    ∧ decode [0x2B00, 1, 2] = .ok (.setTextColor 1 2) [] ∧ decode [0x2C00] = .ok (.setTextScale 0) []
    ∧ decode [0x2D01] = .ok (.setTextWrap true) [] := by
  decide

/-- V-ENC-4, 6, 10, 15, 16: illegal head words, which consume one word. -/
theorem test_decode_illegal :
    decode [0x0205] = .illegal .tableId [] ∧ decode [0x0502] = .illegal .reservedSub []
    ∧ decode [0x1B04] = .illegal .reservedSub [] ∧ decode [0x1600] = .illegal .reservedOpcode []
    ∧ decode [0x0801, 0x1234, 0x0056] = .illegal .reservedSub [0x1234, 0x0056]
    ∧ decode [0x0001] = .illegal .reservedSub [] ∧ decode [0x020D] = .illegal .reservedSub []
    ∧ decode [0xFFFF] = .illegal .reservedOpcode [] := by
  decide

/-- R66: the operand words have not all arrived; the words behind a request wait. -/
theorem test_decode_waits :
    decode [] = .idle ∧ decode [0x1000, 1, 2] = .needOperands ∧ decode [0x1000, 1, 2, 3, 0x0600] = .ok (.pixel 1 2 3) [0x0600] := by
  decide

/-- R61, R62: encodings written out in the spec's examples (P1, P3, P4, V-ENC-12). -/
theorem test_encode_words :
    encode (.init 3) = [0x0103] ∧ encode (.fillRect 0 0 3 2 0xF800) = [0x1300, 0, 0, 3, 2, 0xF800]
    ∧ encode (.color565 0x12 0x34 0x56) = [0x0800, 0x1234, 0x0056]
    ∧ encode (.bitmap 4 4 8 2 0xF800 0x00001000) = [0x2200, 4, 4, 8, 2, 0xF800, 0x1000, 0x0000]
    ∧ encode (.drawChar false 10 20 0xFFFF 0 1 0x41) = [0x2800, 10, 20, 0xFFFF, 0, 0x0141] := by
  decide

/-- The host's table word: 16 bits, zero operands. -/
theorem test_decodeTableWord :
    decodeTableWord 16 0x1B03 = some (.fillCircleHelper 3 0 0 0 0 0) ∧ decodeTableWord 16 0x2200 = some (.bitmap 0 0 0 0 0 0)
    ∧ decodeTableWord 48 0x0056_1234_0800 = some (.color565 0x12 0x34 0x56) ∧ decodeTableWord 16 0x1600 = none := by
  decide

/-! ## Reset -/

/-- V-RST-1. -/
theorem test_reset :
    st0.statusWord = 0 ∧ st0.resp = 0 ∧ (after .getRotation st0).resp = 0 ∧ (after .getWidth st0).resp = 128
    ∧ (after .getHeight st0).resp = 160 := by
  decide

/-! ## Control -/

/-- V-CTL-5. -/
theorem test_nop : (after .nop st0).trace = [] ∧ (after .nop st0).ds = st0.ds := by decide

/-- V-CS-7. -/
theorem test_init_greenTab :
    (after (.init 1) st0).trace = [.sel, .cmd 0x01, .sleep 150, .drain, .desel, .sel, .cmd 0x29, .sleep 100, .drain, .desel]
    ∧ (after (.init 1) st0).ds = { st0.ds with variant := 1, colOffset := 2, rowOffset := 1 } := by
  decide

/-- V-CS-8, with tables that are empty but for the settle steps of the fixtures: the post-MADCTL is sent last and recorded. -/
theorem test_init_blackTab :
    (after (.init 3) st0).ds = { st0.ds with variant := 3, colorSwap := true, madctl := 0xC0 }
    ∧ (after (.init 3) st0).trace.drop 10 = [.sel, .cmd 0x36, .d8 0xC0, .drain, .desel] := by
  decide

/-- V-CS-5. -/
theorem test_runTable_madctl :
    let s := State.resetWith { fixtureCfg with initTables := #v[[⟨0x01, [], some 50⟩, ⟨0x36, [0xC8], none⟩], [], [], [], []] }
    (after (.runTable 0) s).trace
      = [.sel, .cmd 0x01, .sleep 50, .drain, .desel, .sel, .cmd 0x36, .d8 0xC8, .drain, .desel]
    ∧ (after (.runTable 0) s).ds = { s.ds with madctl := 0xC8 } := by
  decide

/-- V-CS-6. -/
theorem test_runTable_empty : (after (.runTable 2) st0).trace = [] ∧ (after (.runTable 2) st0).ds = st0.ds := by decide

/-- V-CS-1, 2, 3, 4. -/
theorem test_commandStep :
    (commandStep fixtureCfg 0x3A [0x05] (some 10)).events = [.sel, .cmd 0x3A, .d8 0x05, .sleep 10, .drain, .desel]
    ∧ (commandStep fixtureCfg 0x11 [] (some 255)).events = [.sel, .cmd 0x11, .sleep 500, .drain, .desel]
    ∧ (commandStep fixtureCfg 0x11 [] (some 0)).events = [.sel, .cmd 0x11, .sleep 0, .drain, .desel]
    ∧ (commandStep fixtureCfg 0x29 [] none).events = [.sel, .cmd 0x29, .drain, .desel] := by
  decide

/-- V-SRC-5, R200 Example. -/
theorem test_setRotation :
    (after (.setRotation 1) st0).trace = [.sel, .cmd 0x36, .d8 0xA0, .drain, .desel]
    ∧ (after (.setRotation 1) st0).ds = { st0.ds with rotation := 1, width := 160, height := 128, madctl := 0xA0 }
    ∧ (after (.setRotation 7) st0).ds = { st0.ds with rotation := 3, width := 160, height := 128, madctl := 0x60 } := by
  decide

/-- V-CTL-2: GET_ROTATION after SET_ROTATION 6. -/
theorem test_getRotation : (after .getRotation { st0 with ds := { st0.ds with rotation := 2 } }).resp = 2 := by decide

/-- V-CTL-1. -/
theorem test_invert :
    (after (.invert true) st0).trace = [.sel, .cmd 0x21, .drain, .desel]
    ∧ (after (.invert false) st0).trace = [.sel, .cmd 0x20, .drain, .desel] := by
  decide

/-- V-CTL-4. -/
theorem test_color565 :
    (after (.color565 255 0 0) st0).resp = 0xF800 ∧ (after (.color565 0 255 0) st0).resp = 0x07E0
    ∧ (after (.color565 0x12 0x34 0x56) st0).resp = 0x11AA ∧ (after (.color565 8 4 8) st0).resp = 0x0821
    ∧ (after (.color565 7 3 7) st0).resp = 0 := by
  decide

/-- V-CTL-5: CLEAR_STATUS with status 0x0006. -/
theorem test_clearStatus : (after .clearStatus { st0 with status := 0x0006 }).status = 0 := by decide

/-! ## Window bursts and clipping -/

/-- V-WB-1: the events of a window burst with offsets (2, 1). -/
theorem test_windowBurst :
    (windowBurst { st0 with ds := { st0.ds with colOffset := 2, rowOffset := 1 } } ⟨3, 4, 7, 5⟩ [0x1234, 0x1234]).events
      = [.sel, .cmd 0x2A, .d16 5, .d16 9, .cmd 0x2B, .d16 5, .d16 6, .cmd 0x2C, .d16 0x1234, .d16 0x1234, .drain, .desel] := by
  decide

/-- V-WB-7. -/
theorem test_swap565 : swap565 0xF800 = 0x001F ∧ swap565 0x07E0 = 0x07E0 ∧ swap565 0x1234 = 0xA222 := by decide

/-- V-WB-8: `SWAP_SCOPE = HV_ONLY` with `colorSwap = 1`. -/
theorem test_colour_swap :
    let s := { st0 with ds := { st0.ds with colorSwap := true } }
    drawn (.hline 0 0 2 0xF800) s = [[0, 1, 0, 0, 0x001F, 0x001F]] ∧ drawn (.pixel 0 0 0xF800) s = [px 0 0 0xF800]
    ∧ drawn (.fillRect 0 0 2 1 0xF800) s = [[0, 1, 0, 0, 0xF800, 0xF800]] := by
  decide

/-! ## Lines and rectangles -/

/-- V-LIN-1, V-SRC-7. -/
theorem test_pixel :
    drawn (.pixel 0 159 0xF800) st0 = [px 0 159 0xF800] ∧ drawn (.pixel (-1) 0 1) st0 = [] ∧ drawn (.pixel 0 160 1) st0 = []
    ∧ drawn (.pixel 128 5 1) st0 = [] := by
  decide

/-- V-LIN-2. -/
theorem test_hline :
    drawn (.hline (-3) 5 10 1) st0 = [[0, 6, 5, 5] ++ List.replicate 7 1]
    ∧ drawn (.hline 120 3 20 1) st0 = [[120, 127, 3, 3] ++ List.replicate 8 1] ∧ drawn (.hline 0 0 0 1) st0 = [] := by
  decide

/-- V-LIN-3. -/
theorem test_vline :
    drawn (.vline 127 150 20 1) st0 = [[127, 127, 150, 159] ++ List.replicate 10 1]
    ∧ drawn (.vline 5 (-10) 12 1) st0 = [[5, 5, 0, 1, 1, 1]] ∧ drawn (.vline 5 (-10) 10 1) st0 = [] := by
  decide

/-- V-SRC-1, V-WB-2, V-WB-3. -/
theorem test_fillRect :
    drawn (.fillRect 3 4 5 2 7) st0 = [[3, 7, 4, 5] ++ List.replicate 10 7]
    ∧ drawn (.fillRect (-5) (-5) 10 10 7) st0 = [[0, 4, 0, 4] ++ List.replicate 25 7]
    ∧ drawn (.fillRect 126 158 5 5 7) st0 = [[126, 127, 158, 159] ++ List.replicate 4 7] := by
  decide

/-- V-WB-5, V-WB-6. -/
theorem test_fillRect_silent :
    drawn (.fillRect 0 0 (-3) 4 7) st0 = [] ∧ drawn (.fillRect 0 0 0 4 7) st0 = [] ∧ drawn (.fillRect 128 0 4 4 7) st0 = []
    ∧ drawn (.fillRect (-10) 0 10 4 7) st0 = [] := by
  decide

/-- V-LIN-4. -/
theorem test_rect :
    drawn (.rect 2 2 4 3 1) st0
      = [[2, 5, 2, 2, 1, 1, 1, 1], [2, 5, 4, 4, 1, 1, 1, 1], [2, 2, 2, 4, 1, 1, 1], [5, 5, 2, 4, 1, 1, 1]] := by
  decide

/-- R124 corner case: a zero width still draws the left edge. -/
theorem test_rect_zero_width : drawn (.rect 0 0 0 5 1) st0 = [[0, 0, 0, 4, 1, 1, 1, 1, 1]] := by decide

/-- V-LIN-7, V-LIN-8, V-LIN-9, V-LIN-11. -/
theorem test_line :
    drawn (.line 0 0 5 2 1) st0 = [[0, 5, 0, 0, 1, 1], [2, 5, 1, 1, 1, 1], [4, 5, 2, 2, 1, 1]]
    ∧ drawn (.line 5 2 0 0 1) st0 = drawn (.line 0 0 5 2 1) st0
    ∧ drawn (.line 0 0 2 5 1) st0 = [[0, 0, 0, 5, 1, 1], [1, 1, 2, 5, 1, 1], [2, 2, 4, 5, 1, 1]]
    ∧ drawn (.line 0 3 3 0 1) st0 = [[0, 3, 3, 3, 1], [1, 3, 2, 2, 1], [2, 3, 1, 1, 1], [3, 3, 0, 0, 1]] := by
  decide

/-- V-LIN-13, V-LIN-14, V-LIN-15: clipping of runs. -/
theorem test_line_clipped :
    drawn (.line (-2) 0 3 0 1) st0 = [[0, 3, 0, 0, 1, 1, 1, 1]]
    ∧ drawn (.line 125 0 130 2 1) st0 = [[125, 127, 0, 0, 1, 1], [127, 127, 1, 1, 1]]
    ∧ drawn (.line 0 (-1) 5 1 1) st0 = [[2, 5, 0, 0, 1, 1], [4, 5, 1, 1, 1, 1]] := by
  decide

/-! ## Circles -/

/-- R140: the values of MIDPOINT. -/
theorem test_midpoint :
    midpointSteps 1 = [(1, 0)] ∧ midpointSteps 3 = [(1, 3), (2, 2)] ∧ midpointSteps 5 = [(1, 5), (2, 5), (3, 4), (4, 3)]
    ∧ midpointSteps 10 = [(1, 10), (2, 10), (3, 10), (4, 9), (5, 9), (6, 8), (7, 7)] ∧ midpointSteps (-3) = [] := by
  decide

/-- R141 Example, V-CIR-4. -/
theorem test_circle :
    drawn (.circle 10 10 3 1) st0
      = [px 10 13 1, px 10 7 1, px 13 10 1, px 7 10 1, px 11 13 1, px 9 13 1, px 11 7 1, px 9 7 1, px 13 11 1, px 7 11 1,
         px 13 9 1, px 7 9 1, px 12 12 1, px 8 12 1, px 12 8 1, px 8 8 1, px 12 12 1, px 8 12 1, px 12 8 1, px 8 8 1] := by
  decide +kernel

/-- V-CIR-1. -/
theorem test_circle_zero : drawn (.circle 10 10 0 1) st0 = List.replicate 4 (px 10 10 1) := by decide

/-- V-CIR-5. -/
theorem test_circleHelper :
    drawn (.circleHelper 1 10 10 3 1) st0 = [px 10 7 1, px 7 10 1, px 7 9 1, px 9 7 1, px 8 8 1, px 8 8 1]
    ∧ drawn (.circleHelper 2 10 10 3 1) st0 = [px 10 7 1, px 13 10 1, px 11 7 1, px 13 9 1, px 12 8 1, px 12 8 1]
    ∧ drawn (.circleHelper 4 10 10 3 1) st0 = [px 10 13 1, px 13 10 1, px 11 13 1, px 13 11 1, px 12 12 1, px 12 12 1]
    ∧ drawn (.circleHelper 8 10 10 3 1) st0 = [px 10 13 1, px 7 10 1, px 7 11 1, px 9 13 1, px 8 12 1, px 8 12 1]
    ∧ drawn (.circleHelper 0 10 10 3 1) st0 = [] := by
  decide

/-- V-CIR-6. -/
theorem test_fillCircle :
    drawn (.fillCircle 10 10 1 1) st0
      = [[10, 10, 9, 11, 1, 1, 1], [11, 11, 10, 10, 1], [10, 10, 9, 11, 1, 1, 1], [9, 9, 10, 10, 1], [10, 10, 9, 11, 1, 1, 1]] := by
  decide

/-- V-CIR-8, V-CIR-7. -/
theorem test_fillCircleHelper :
    drawn (.fillCircleHelper 1 10 10 3 4 1) st0
      = [[11, 11, 7, 17] ++ List.replicate 11 1, [13, 13, 9, 15] ++ List.replicate 7 1, [12, 12, 8, 16] ++ List.replicate 9 1,
         [12, 12, 8, 16] ++ List.replicate 9 1]
    ∧ drawn (.fillCircleHelper 0 10 10 3 0 1) st0 = [] := by
  decide

/-- V-CIR-9, V-CIR-11: edges and corner pixels, edges swapped and corners not. -/
theorem test_roundRect :
    drawn (.roundRect 0 0 10 8 2 0xF800) { st0 with ds := { st0.ds with colorSwap := true } }
      = [[2, 7, 0, 0] ++ List.replicate 6 0x1F, [2, 7, 7, 7] ++ List.replicate 6 0x1F, [0, 0, 2, 5] ++ List.replicate 4 0x1F,
         [9, 9, 2, 5] ++ List.replicate 4 0x1F]
        ++ ([(2, 0), (0, 2), (0, 1), (1, 0), (1, 0), (0, 1), (7, 0), (9, 2), (8, 0), (9, 1), (9, 1), (8, 0),
             (7, 7), (9, 5), (8, 7), (9, 6), (9, 6), (8, 7), (2, 7), (0, 5), (0, 6), (1, 7), (1, 7), (0, 6)].map
              fun p => px p.1 p.2 0xF800) := by
  decide +kernel

/-- R145's pseudocode where `2r > w` and `2r < h`: both vertical edges are drawn (log entry 33). -/
theorem test_roundRect_narrow :
    (drawn (.roundRect 20 20 2 10 2 1) st0).take 2 = [[20, 20, 22, 27] ++ List.replicate 6 1, [21, 21, 22, 27] ++ List.replicate 6 1] := by
  decide +kernel

/-- V-CIR-10. -/
theorem test_fillRoundRect :
    drawn (.fillRoundRect 0 0 10 8 2 1) st0
      = [[2, 7, 0, 7] ++ List.replicate 48 1, [8, 8, 0, 7] ++ List.replicate 8 1, [9, 9, 1, 6] ++ List.replicate 6 1,
         [9, 9, 1, 6] ++ List.replicate 6 1, [8, 8, 0, 7] ++ List.replicate 8 1, [1, 1, 0, 7] ++ List.replicate 8 1,
         [0, 0, 1, 6] ++ List.replicate 6 1, [0, 0, 1, 6] ++ List.replicate 6 1, [1, 1, 0, 7] ++ List.replicate 8 1] := by
  decide

/-! ## Triangles and bitmaps -/

/-- V-TRI-1. -/
theorem test_triangle :
    drawn (.triangle 0 0 4 0 0 4 1) st0
      = [[0, 4, 0, 0] ++ List.replicate 5 1, [0, 4, 4, 4, 1], [1, 4, 3, 3, 1], [2, 4, 2, 2, 1], [3, 4, 1, 1, 1], [4, 4, 0, 0, 1],
         [0, 0, 0, 4] ++ List.replicate 5 1] := by
  decide

/-- V-SRC-3. -/
theorem test_fillTriangle :
    (drawn (.fillTriangle 0 0 10 0 5 5 1) st0).map (·.take 4)
      = [[0, 10, 0, 0], [1, 9, 1, 1], [2, 8, 2, 2], [3, 7, 3, 3], [4, 6, 4, 4], [5, 5, 5, 5]] := by
  decide

/-- V-TRI-4 (division rounds toward zero) and V-TRI-3 (all on one row). -/
theorem test_fillTriangle_rounding :
    (drawn (.fillTriangle 5 0 0 3 5 6 1) st0).map (·.take 4)
      = [[5, 5, 0, 0], [4, 5, 1, 1], [2, 5, 2, 2], [0, 5, 3, 3], [1, 5, 4, 4], [3, 5, 5, 5], [5, 5, 6, 6]]
    ∧ drawn (.fillTriangle 7 2 1 2 4 2 1) st0 = [[1, 7, 2, 2] ++ List.replicate 7 1] := by
  decide

/-- V-BMP-1. -/
theorem test_bitmap :
    drawn (.bitmap 4 4 8 2 1 0x1000) { st0 with bitmap := [(0x1000, 0xA5), (0x1001, 0x0F)] }
      = [px 4 4 1, px 6 4 1, px 9 4 1, px 11 4 1, px 8 5 1, px 9 5 1, px 10 5 1, px 11 5 1] := by
  decide

/-- V-BMP-2: stride 2, padding bits not drawn. -/
theorem test_bitmap_padding :
    drawn (.bitmap 0 0 9 2 1 0x20) { st0 with bitmap := [(0x20, 0xFF), (0x21, 0x80), (0x22, 0x01)] }
      = [px 0 0 1, px 1 0 1, px 2 0 1, px 3 0 1, px 4 0 1, px 5 0 1, px 6 0 1, px 7 0 1, px 8 0 1, px 7 1 1] := by
  decide

/-! ## Glyphs and text -/

/-- V-GLY-1: the fast path. -/
theorem test_drawChar_fast :
    (after (.drawChar false 10 20 0xFFFF 0 1 0x41) st0).trace.length = 62
    ∧ (after (.drawChar false 10 20 0xFFFF 0 1 0x41) st0).trace.take 19
      = [.sel, .cmd 0x36, .d8 0x20, .cmd 0x2A, .d16 20, .d16 27, .cmd 0x2B, .d16 10, .d16 15, .cmd 0x2C,
         .d16 0, .d16 0, .d16 0xFFFF, .d16 0xFFFF, .d16 0xFFFF, .d16 0xFFFF, .d16 0xFFFF, .d16 0, .d16 0]
    ∧ (after (.drawChar false 10 20 0xFFFF 0 1 0x41) st0).trace.drop 58 = [.cmd 0x36, .d8 0x00, .drain, .desel] := by
  decide

/-- V-GLY-4, V-GLY-7, V-GLY-8: the general path, transparent and clipped. -/
theorem test_drawChar_general :
    drawn (.drawChar false 10 20 0xFFFF 0xFFFF 1 0x41) st0
      = ([(10, 22), (10, 23), (10, 24), (10, 25), (10, 26), (11, 21), (11, 24), (12, 20), (12, 24), (13, 21), (13, 24), (14, 22),
          (14, 23), (14, 24), (14, 25), (14, 26)].map fun p => px p.1 p.2 0xFFFF)
    ∧ (drawn (.drawChar false (-1) 0 0xFFFF 0 1 0x41) st0).length = 40
    ∧ (drawn (.drawChar false 123 152 0xFFFF 0 1 0x41) st0).length = 40 := by
  decide +kernel

/-- V-TXT-1: wrapping at the right margin. -/
theorem test_writeChar_wrap :
    let s := { st0 with ds := { st0.ds with cursorX := 126, textBg := 0 } }
    ((after (.writeChar 0x41) s).ds.cursorX, (after (.writeChar 0x41) s).ds.cursorY) = (6, 8)
    ∧ (after (.writeChar 0x41) s).trace.take 9
      = [.sel, .cmd 0x36, .d8 0x20, .cmd 0x2A, .d16 8, .d16 15, .cmd 0x2B, .d16 0, .d16 5] := by
  decide

/-- V-TXT-1, V-TXT-2, V-TXT-4: newline, carriage return, no wrap, an off-screen cell. -/
theorem test_writeChar_cursor :
    (after (.writeChar 0x0A) { st0 with ds := { st0.ds with cursorX := 6, cursorY := 8 } }).ds
      = { st0.ds with cursorX := 0, cursorY := 16 }
    ∧ (after (.writeChar 0x0D) { st0 with ds := { st0.ds with cursorX := 6 } }).ds = { st0.ds with cursorX := 6 }
    ∧ (after (.writeChar 0x41) { st0 with ds := { st0.ds with cursorX := 126, wrap := false } }).ds.cursorX = 132
    ∧ (after (.writeChar 0x41) { st0 with ds := { st0.ds with cursorX := -6 } }).ds.cursorX = 0
    ∧ (after (.writeChar 0x41) { st0 with ds := { st0.ds with cursorX := -6 } }).trace = [] := by
  decide

/-- R186, R187, R188 (V-TXT-5), R189. -/
theorem test_text_setters :
    (after (.setCursor (-6) 3) st0).ds = { st0.ds with cursorX := 0xFFFA, cursorY := 3 }
    ∧ (after (.setTextColor 1 2) st0).ds = { st0.ds with textColor := 1, textBg := 2 }
    ∧ (after (.setTextScale 0) st0).ds.textScale = 1 ∧ (after (.setTextScale 3) st0).ds.textScale = 3
    ∧ (after (.setTextWrap false) st0).ds = { st0.ds with wrap := false } := by
  decide

/-! ## Exceptions and acceptance -/

/-- V-EXC-1: an illegal head word consumes one word. -/
theorem test_illegal_step :
    let t := stepped { st0 with chan := [0x1301, 0x0000, 0x0000, 0x0003] }
    t.chan = [0x0000, 0x0000, 0x0003] ∧ t.status = 0x0002 ∧ t.trace = [] ∧ t.ds = st0.ds := by
  decide

/-- V-EXC-2: a timed-out SET_ROTATION commits nothing. -/
theorem test_transportFault :
    let t := after (.setRotation 1) (stTimeout 0)
    t.trace = [.sel, .cmd 0x36, .d8 0xA0, .drain, .desel] ∧ t.status = 0x0004 ∧ t.ds = (stTimeout 0).ds := by
  decide

/-- V-EXC-4: INIT 1 whose first DRAIN (its second held event) times out stops there. -/
theorem test_transportFault_init :
    let t := after (.init 1) (stTimeout 1)
    t.trace = [.sel, .cmd 0x01, .sleep 150, .drain, .desel] ∧ t.status = 0x0004 ∧ t.ds = (stTimeout 1).ds := by
  decide

/-- V-EXC-5: without a timeout an unanswered DRAIN holds the block with `BUSY = 1`, and no step is enabled. -/
theorem test_drain_hang :
    let t := after (.setRotation 1) { st0 with transport := [.silent] }
    t.trace = [.sel, .cmd 0x36, .d8 0xA0, .drain] ∧ t.statusWord = 0x0001 ∧ t.held = some .drain ∧ t.owned = true
    ∧ (match step t with
        | .fault .heldAtDrain => true
        | _ => false) = true := by
  decide

/-- R66: the head word is accepted, `BUSY` is 1, and the request runs when its operands have arrived. -/
theorem test_operands_arrive :
    let t := stepped { st0 with chan := [0x1000, 3] }
    t.status = 0x0001 ∧ t.latched = [0x1000, 3] ∧ t.chan = []
    ∧ drawn .nop (stepped { t with chan := [4, 9, 0x0600] }) = [px 3 4 9]
    ∧ (stepped { t with chan := [4, 9, 0x0600] }).chan = [0x0600] ∧ (stepped { t with chan := [4, 9, 0x0600] }).status = 0 := by
  decide

/-- R251: a reset after two events of a SET_ROTATION. -/
theorem test_reset_during :
    let t := platformResetDuring 2 { st0 with chan := [0x0301, 9] }
    t.trace = [.sel, .cmd 0x36] ∧ t.ds = st0.ds ∧ t.chan = [] ∧ t.owned = false ∧ t.status = 0 := by
  decide

/-- R23, R264, R226: inside a SET_ROTATION that follows an illegal word the status reads `BUSY` and the sticky bit; it has three
events before its DRAIN and five in all. -/
theorem test_read_status_during :
    let s := { st0 with status := 0x0002, chan := [0x0301, 9] }
    hostReadStatusDuring (.sent 0) s = some 0x0003 ∧ hostReadStatusDuring (.sent 5) s = some 0x0003
    ∧ hostReadStatusDuring (.sent 6) s = none ∧ hostReadStatusDuring .ending s = some 0x0003 := by
  decide

/-- R221, R222, R207: the fault bit is set, or cleared, before `BUSY` is; a request that is held has no ending. -/
theorem test_read_status_ending :
    hostReadStatusDuring (.sent 0) { st0 with chan := [0xFF00] } = some 0x0001
    ∧ hostReadStatusDuring .ending { st0 with chan := [0xFF00] } = some 0x0003
    ∧ hostReadStatusDuring (.sent 5) { stTimeout 0 with chan := [0x0301] } = some 0x0001
    ∧ hostReadStatusDuring .ending { stTimeout 0 with chan := [0x0301] } = some 0x0005
    ∧ hostReadStatusDuring .ending { st0 with status := 0x0006, chan := [0x0900] } = some 0x0001
    ∧ hostReadStatusDuring .ending { st0 with transport := [.silent], chan := [0x0301] } = none := by
  decide

/-- U14: at the commit of a GET_WIDTH the response reads old or new; before it, old. -/
theorem test_read_resp_during (n : Nat) :
    hostReadRespDuring (.sent 0) n { st0 with chan := [0x0600] } = some 0
    ∧ (registersDuring .ending { st0 with chan := [0x0600] }).map (·.resp) = some 128
    ∧ hostReadRespDuring .ending n { st0 with chan := [0x0600] } = some (if Config.respTakesNew n then 128 else 0) := by
  refine ⟨?_, by decide, ?_⟩
  · unfold hostReadRespDuring
    cases Config.respTakesNew n <;> decide
  · unfold hostReadRespDuring
    cases Config.respTakesNew n <;> decide

/-- A table word placed by the host runs as the first request after reset. -/
theorem test_withFetchWord :
    (stepped (State.reset.withFetchWord 16 0x2C03)).ds.textScale = 3
    ∧ (stepped (State.reset.withFetchWord 16 0x1000)).trace.length = 11
    ∧ (stepped (State.reset.withFetchWord 16 0x1000)).chan = [] := by
  decide

/-! ## The reference controller, the packed table image, the assembler -/

/-- An arbitrary controller. -/
def anyController : Controller :=
  { cs := 9, ce := 3, rs := 1, re := 0, ptrC := 5, ptrR := 6, writing := true, mad := 0x55, inv := false, op := some 0x2A,
    words := 1, bytes := 1, writes := [] }

/-- V-SRC-6: the fast path writes column 0 of the fixture glyph at (10, 20..27). -/
theorem test_controller_fast :
    (pixelsOf st0 anyController (drawChar st0 10 20 0xFFFF 0 1 0x41 false)).take 8
      = [⟨some (10, 20), 0⟩, ⟨some (10, 21), 0⟩, ⟨some (10, 22), 0xFFFF⟩, ⟨some (10, 23), 0xFFFF⟩, ⟨some (10, 24), 0xFFFF⟩,
         ⟨some (10, 25), 0xFFFF⟩, ⟨some (10, 26), 0xFFFF⟩, ⟨some (10, 27), 0⟩] := by
  decide

/-- V-LIN-7 under the reference controller: an under-sent line still writes exactly its points. -/
theorem test_controller_line :
    pixelsOf st0 anyController (line st0 0 0 5 2 7)
      = [(0, 0), (1, 0), (2, 1), (3, 1), (4, 2), (5, 2)].map fun p => (⟨some p, 7⟩ : PixelWrite) := by
  decide

/-- R48: high byte first. -/
theorem test_wireBytes : BusEvent.wireBytes (.d16 0x1234) = [0x12, 0x34] := by decide

/-- R88: the layout of a packed table. -/
theorem test_packTable :
    packTable [⟨0x01, [], some 50⟩, ⟨0x36, [0xC8], none⟩] = some [2, 0x01, 0x80, 50, 0x36, 0x01, 0xC8]
    ∧ unpackTable [2, 0x01, 0x80, 50, 0x36, 0x01, 0xC8] = some [⟨0x01, [], some 50⟩, ⟨0x36, [0xC8], none⟩]
    ∧ packTable [⟨0x01, [], some 256⟩] = none := by
  decide

/-- R69 and R77 Examples. -/
theorem test_assemble :
    assemble "CIRCLE_HELPER" [0xF, 40, 40, 10, 0xF800] = some [.circleHelper 0xF 40 40 10 0xF800]
    ∧ assemble "DRAW_CHAR" [0, 10, 20, 0xFFFF, 0x0000, 1, 0x41] = some [.drawChar false 10 20 0xFFFF 0 1 0x41]
    ∧ assemble "BITMAP" [4, 4, 8, 2, 0x001F, 0x00001000] = some [.bitmap 4 4 8 2 0x1F 0x1000]
    ∧ assemble "FILL_SCREEN" [7] = some [.fillRect 0 0 0x7FFF 0x7FFF 7]
    ∧ assemble "WRITE_STR" [0x41, 0x42] = some [.writeChar 0x41, .writeChar 0x42] ∧ assemble "RUN_TABLE" [5] = none := by
  decide

/-- R69 Examples, as text. -/
theorem test_assembleLine :
    assembleLine "CIRCLE_HELPER 0xF, 40, 40, 10, 0xF800".toList = some [.circleHelper 0xF 40 40 10 0xF800]
    ∧ assembleLine "DRAW_CHAR 0, 10, 20, 0xFFFF, 0x0000, 1, 'A'".toList = some [.drawChar false 10 20 0xFFFF 0 1 0x41]
    ∧ assembleLine "PIXEL -1, 0, 65536".toList = none ∧ assembleLine "NOP".toList = some [.nop]
    ∧ assembleLine "WRITE_STR \"A,B\"".toList = some [.writeChar 0x41, .writeChar 0x2C, .writeChar 0x42] := by
  decide +kernel

/-- R77 gives a string to WRITE_STR alone. -/
theorem test_assembleLine_string :
    assembleLine "SET_CURSOR \"AB\"".toList = none ∧ assembleLine "WRITE_STR 65, 66".toList = none
    ∧ assembleLine "WRITE_STR \"\"".toList = some [] := by
  decide +kernel

/-! ## Witnesses

For every statement of Certificates/Slice0/Obligations.lean that has hypotheses, a state and operands that meet all of them
together, at a boundary value where the statement has several clauses. -/

/-- Two requests wait. -/
def stW : State := { st0 with chan := [0x0303, 0x2C07] }

/-- A state with a bitmap, one byte of which another agent is changing. -/
def stB : State := { st0 with bitmap := [(0x20, 0xA5)], bitmapRace := [(0x21, 0x0F), (0x21, 0x33)] }

/-- A state on a one-pixel screen. -/
def st1 : State := { st0 with ds := { st0.ds with width := 1, height := 1 } }

/-- DecodeEncodeRoundTrip: the largest legal table id, with a word behind it. -/
theorem test_witness_roundTrip :
    (Instr.runTable 4).WellFormed ∧ decode (encode (.runTable 4) ++ [7]) = .ok (.runTable 4) [7] := by
  decide

/-- DecodeTakesExactlyOneRequest: COLOR565 with an ignored byte, and another request. -/
theorem test_witness_oneRequest :
    decode [0x0800, 0x1234, 0xFF56, 9] = .ok (.color565 0x12 0x34 0x56) [9]
    ∧ decode [0x2000, 1, 2, 3, 4, 5, 6, 7, 8] = .ok (.triangle 1 2 3 4 5 6 7) [8] := by
  decide

/-- The clauses of `ReservedHead` at their bounds (R67). -/
def reservedHeads : List Word :=
  [0x0001, 0x0104, 0x0205, 0x0401, 0x0502, 0x0601, 0x0701, 0x0801, 0x0901, 0x0A00, 0x0F00]
    ++ [0x1001, 0x1501, 0x1600, 0x1700, 0x1801, 0x1910, 0x1A01, 0x1B04, 0x1C01, 0x1D01, 0x1E00, 0x1F00]
    ++ [0x2001, 0x2201, 0x2300, 0x2700, 0x2802, 0x2A01, 0x2B01, 0x2D02, 0x2E00, 0xFFFF]

/-- Legal head words beside them (R65). -/
def legalHeads : List Word :=
  [0x0000, 0x0103, 0x0204, 0x03FF, 0x0400, 0x0501, 0x0900, 0x1000, 0x1500, 0x1800, 0x190F, 0x1B03]
    ++ [0x1D00, 0x2000, 0x2200, 0x2801, 0x29FF, 0x2A00, 0x2B00, 0x2CFF, 0x2D01]

/-- R67: which head words are reserved, at the bounds. -/
theorem test_reservedHead :
    (reservedHeads.all fun w => decide (ReservedHead w)) = true ∧ (legalHeads.all fun w => decide (¬ReservedHead w)) = true := by
  decide

/-- PackedTableRoundTrip: the bounds of the packed form (R88). -/
theorem test_witness_packed :
    (packTable [⟨1, List.replicate 127 0, some 255⟩]).isSome = true ∧ packTable [⟨1, List.replicate 128 0, none⟩] = none
    ∧ packTable [⟨1, [], some 256⟩] = none ∧ packTable [⟨1, [5], some 255⟩] = some [1, 1, 0x81, 5, 255]
    ∧ unpackTable [1, 1, 0x81, 5, 255] = some [⟨1, [5], some 255⟩] := by
  decide +kernel

/-- StepRunsTheDecodedRequest: at a boundary, and with words latched. -/
theorem test_witness_step :
    (stW.held = none ∧ stW.busy = false ∧ decode (stW.latched ++ stW.chan) = .ok (.setRotation 3) [0x2C07])
    ∧ (let s := { st0 with status := 0x0001, latched := [0x1000, 1], chan := [2, 3, 9] }
       s.held = none ∧ s.latched ≠ [] ∧ decode (s.latched ++ s.chan) = .ok (.pixel 1 2 3) [9]) := by
  decide

/-- StepEndsAtARequestBoundary. -/
theorem test_witness_boundary :
    stW.Idle ∧ stW.owned = false ∧ stW.TransportAnswers ∧ (Instr.setRotation 3).WellFormed
    ∧ stW.chan = encode (.setRotation 3) ++ [0x2C07] := by
  decide

/-- OperandsMayArriveLater: at a boundary, and with words latched. -/
theorem test_witness_operands :
    (let s := { st0 with chan := [0x1000, 3] }
     s.held = none ∧ s.busy = false ∧ decode (s.latched ++ s.chan) = .needOperands)
    ∧ (let s := { st0 with status := 0x0001, latched := [0x1000], chan := [3, 4] }
       s.held = none ∧ s.latched ≠ [] ∧ decode (s.latched ++ s.chan) = .needOperands) := by
  decide

/-- IdleStaysAndHeldIsStuck: its three clauses. -/
theorem test_witness_idle :
    (st0.held = none ∧ st0.latched = [] ∧ st0.chan = []) ∧ (after (.invert true) { st0 with transport := [.silent] }).held = some .drain
    ∧ (after (.runTable 1) { st0 with transport := [.silent] }).held = some .sleep := by
  decide

/-- A step of `stW`: the premise of every statement about all steps. -/
theorem test_witness_next : step stW = .next (stepped stW) := by rfl

/-- StepKeepsTheControlInvariant, StepKeepsTheLogicalSize, TextScaleIsNeverZero, StepKeepsWindowsWithinAWord,
StepKeepsTheBusProtocol, StepKeepsTheMemoryForm, StepKeepsMadctlCoherent: their premises hold of `stW`, which has a step. -/
theorem test_witness_invariants :
    stW.ControlInv ∧ stW.DisplayInv ∧ stW.cfg.PanelOk ∧ stW.cfg.OffsetsOk ∧ stW.WindowFits ∧ stW.TraceOk ∧ stW.MemoryOk
    ∧ stW.TransportAnswers ∧ stW.held = none ∧ stW.MadctlCoherent ∧ stW.ds.textScale ≠ 0 := by
  decide

/-- TextScaleIsNeverZero: SET_TEXT_SCALE 0 runs. -/
theorem test_witness_scale : exec (.setTextScale 0) st0 = .next (after (.setTextScale 0) st0) := by rfl

/-- ResetAbandonsTheRequest: a request that a step performs, and a block that is held. -/
theorem test_witness_reset :
    step stW = .next (stepped stW) ∧ (after (.invert true) { st0 with transport := [.silent] }).held = some .drain := by
  exact ⟨rfl, by decide⟩

/-- IllegalRequestConsumesTheHeadWord. -/
theorem test_witness_illegal :
    let s := { st0 with chan := [0x1301, 5] }
    s.Idle ∧ s.chan = 0x1301 :: [5] ∧ ReservedHead 0x1301 := by
  decide

/-- TimeoutEndsTheRequest: at the first event, and behind a SLEEP that was answered. -/
theorem test_witness_timeout :
    (stTimeout 0).cfg.drainTimeout = some 5
    ∧ (after (.setRotation 1) (stTimeout 0).answered).trace
      = (stTimeout 0).trace ++ [.sel, .cmd 0x36, .d8 0xA0] ++ [.drain] ++ [.desel]
    ∧ (stTimeout 0).SilentAt (awaitCount [.sel, .cmd 0x36, .d8 0xA0])
    ∧ (after (.runTable 1) (stTimeout 1).answered).trace
      = (stTimeout 1).trace ++ [.sel, .cmd 0x01, .sleep 150] ++ [.drain] ++ [.desel]
    ∧ (stTimeout 1).SilentAt (awaitCount [.sel, .cmd 0x01, .sleep 150]) := by
  decide

/-- HostReadsStatusAndResponse: a request that ends, an illegal one, one that is held; both ends of the event counts. -/
theorem test_witness_reads :
    let s := { st0 with chan := [0x0301] }
    let e := { st0 with chan := [0x2FFF] }
    let h := { st0 with chan := [0x0301], transport := [.silent] }
    s.accepting = true ∧ step s = .next (stepped s) ∧ decode (s.latched ++ s.chan) = .ok (.setRotation 1) []
    ∧ s.trace.length + 5 ≤ (stepped s).trace.length ∧ (stepped s).trace.length < s.trace.length + 6 ∧ (stepped s).busy = false
    ∧ e.accepting = true ∧ step e = .next (stepped e) ∧ (∃ why rest, decode (e.latched ++ e.chan) = .illegal why rest)
    ∧ h.accepting = true ∧ step h = .next (stepped h) ∧ decode (h.latched ++ h.chan) = .ok (.setRotation 1) []
    ∧ (stepped h).busy = true :=
  ⟨by decide, by rfl, by decide, by decide, by decide, by decide, by decide, by rfl, ⟨_, _, by rfl⟩, by decide, by rfl,
   by decide, by decide⟩

/-- TimeoutEndsTheRequest, UnansweredAwaitHoldsTheBlock: the requests of their witnesses run where the transport answers. -/
theorem test_witness_answered :
    exec (.setRotation 1) (stTimeout 0).answered = .next (after (.setRotation 1) (stTimeout 0).answered)
    ∧ exec (.runTable 1) (stTimeout 1).answered = .next (after (.runTable 1) (stTimeout 1).answered) := by
  exact ⟨rfl, rfl⟩

/-- UnansweredAwaitHoldsTheBlock: a DRAIN without a timeout, and a SLEEP although there is one. -/
theorem test_witness_unanswered :
    (let s := { st0 with transport := [.silent] }
     s.cfg.drainTimeout = none ∧ s.SilentAt (awaitCount [.sel, .cmd 0x36, .d8 0xA0])
     ∧ (after (.setRotation 1) s.answered).trace = s.trace ++ [.sel, .cmd 0x36, .d8 0xA0] ++ [.drain] ++ [.desel])
    ∧ (stTimeout 0).SilentAt (awaitCount [.sel, .cmd 0x01])
    ∧ (after (.runTable 1) (stTimeout 0).answered).trace
      = (stTimeout 0).trace ++ [.sel, .cmd 0x01] ++ [.sleep 150] ++ [.drain, .desel] := by
  decide

/-- EveryRequestComesToOneOfThreeEnds: a request whose own answers are done although a later one is silent; a request that ends at
its DRAIN; a request that is held at its SLEEP. -/
theorem test_witness_ends :
    ((stTimeout 1).AnswersFor (awaitCount [.sel, .cmd 0x21, .drain, .desel])
      ∧ (after (.invert true) (stTimeout 1)).trace = [.sel, .cmd 0x21, .drain, .desel]
      ∧ (after (.invert true) (stTimeout 1)).tfault = false ∧ (after (.invert true) (stTimeout 1)).transport = [.silent])
    ∧ ((stTimeout 0).SilentAt (awaitCount [.sel, .cmd 0x21]) ∧ (after (.invert true) (stTimeout 0)).tfault = true
      ∧ (after (.invert true) (stTimeout 0)).busy = false)
    ∧ ((stTimeout 0).SilentAt (awaitCount [.sel, .cmd 0x01]) ∧ (after (.runTable 1) (stTimeout 0)).held = some .sleep
      ∧ (after (.runTable 1) (stTimeout 0)).busy = true) := by
  decide

/-- FaultBitsAreSticky: a request that is no CLEAR_STATUS with both bits set, a step that sets each bit. -/
theorem test_witness_sticky :
    (let s := { st0 with status := 0x0006, chan := [0x0000] }
     decode (s.latched ++ s.chan) = .ok .nop [] ∧ (stepped s).illegal = true ∧ (stepped s).tfault = true)
    ∧ (let s := { st0 with chan := [0x1600] }
       s.illegal = false ∧ (stepped s).illegal = true)
    ∧ (let s := { stTimeout 0 with chan := [0x0501] }
       s.tfault = false ∧ (stepped s).tfault = true ∧ (stepped s).trace = s.trace ++ [.sel, .cmd 0x21] ++ [.drain, .desel]
       ∧ s.SilentAt (awaitCount [.sel, .cmd 0x21])) := by
  decide

/-- The premise of every statement of a request's effect: `TransportAnswers`, with no answer listed and with some listed; and of
BitmapDrawsItsSetBits: no byte changes. -/
theorem test_witness_transport :
    st0.TransportAnswers ∧ { st0 with transport := [.done, .done] }.TransportAnswers ∧ st0.bitmapRace = [] := by
  decide

/-- SolidRequestsFillTheClippedRectangle: FILL_SCREEN on the least and on the greatest screen. -/
theorem test_witness_fillScreen :
    (1 ≤ st1.ds.width.toNat ∧ st1.ds.width.toNat ≤ 32767 ∧ 1 ≤ st1.ds.height.toNat ∧ st1.ds.height.toNat ≤ 32767)
    ∧ drawn (fillScreen 7) st1 = [px 0 0 7] ∧ (0x7FFF : Word).toNat ≤ 32767 := by
  decide

/-- VerticesAreSortedByRow, FillTriangleSpansTheCrossings: a tie keeps its order. -/
theorem test_witness_sort :
    sortByY ⟨7, 5⟩ ⟨1, 5⟩ ⟨4, 2⟩ = (⟨4, 2⟩, ⟨7, 5⟩, ⟨1, 5⟩) ∧ sortByY ⟨7, 5⟩ ⟨1, 5⟩ ⟨4, 5⟩ = (⟨7, 5⟩, ⟨1, 5⟩, ⟨4, 5⟩) := by
  decide

/-- RacingBytesReadOldOrNew: a byte that changes, and the bytes beside it. -/
theorem test_witness_race : stB.TransportAnswers ∧ stB.bitmapRace = [(0x21, 0x0F), (0x21, 0x33)] ∧ memRead stB 0x20 = 0xA5 := by
  decide

/-- WriteCharDrawsAndAdvances: the last cell that ends at the right margin is not wrapped, the next one is. -/
theorem test_witness_margin :
    (after (.writeChar 0x41) { st0 with ds := { st0.ds with cursorX := 122 } }).ds.cursorX = 128
    ∧ (after (.writeChar 0x41) { st0 with ds := { st0.ds with cursorX := 123 } }).ds.cursorX = 6 := by
  decide

/-- SolidFillsWriteExactlyTheirPixels, LineWritesExactlyItsPoints, CircleEqualsItsFullHelper: their premises. -/
theorem test_witness_controller :
    st1.TransportAnswers ∧ OpcodesDistinct st1.cfg ∧ st1.WindowFits
    ∧ { st1 with ds := { st1.ds with width := 0xFFFF, colOffset := 1 } }.WindowFits := by
  decide

/-- SolidFillsWriteExactlyTheirPixels, LineWritesExactlyItsPoints: the requests run. -/
theorem test_witness_solid_runs :
    exec (.hline 0 0 1 9) st1 = .next (after (.hline 0 0 1 9) st1) ∧ exec (.vline 0 0 1 9) st1 = .next (after (.vline 0 0 1 9) st1)
    ∧ exec (.fillRect 0 0 1 1 9) st1 = .next (after (.fillRect 0 0 1 1 9) st1)
    ∧ exec (.line 0 0 0 0 9) st1 = .next (after (.line 0 0 0 0 9) st1) := by
  exact ⟨rfl, rfl, rfl, rfl⟩

/-- CircleEqualsItsFullHelper: both requests run. -/
theorem test_witness_circle_runs :
    exec (.circle 0 0 1 9) st1 = .next (after (.circle 0 0 1 9) st1)
    ∧ exec (.circleHelper 0xF 0 0 1 9) st1 = .next (after (.circleHelper 0xF 0 0 1 9) st1) := by
  exact ⟨rfl, rfl⟩

/-- GlyphPathsWriteTheSamePixels: the last cell on the screen. -/
theorem test_witness_glyph :
    st0.TransportAnswers ∧ OpcodesDistinct st0.cfg ∧ st0.cfg.ToggleOk ∧ st0.WindowFits ∧ (0xFFFF : Word) ≠ 0
    ∧ 0 ≤ (122 : Word).toInt ∧ (122 : Word).toInt + 5 < (st0.ds.width.toNat : Int)
    ∧ 0 ≤ (152 : Word).toInt ∧ (152 : Word).toInt + 7 < (st0.ds.height.toNat : Int) := by
  decide

/-- GlyphPathsWriteTheSamePixels: both requests run. -/
theorem test_witness_glyph_runs :
    exec (.drawChar false 122 152 0xFFFF 0 1 0x41) st0 = .next (after (.drawChar false 122 152 0xFFFF 0 1 0x41) st0)
    ∧ exec (.drawChar true 122 152 0xFFFF 0 1 0x41) st0 = .next (after (.drawChar true 122 152 0xFFFF 0 1 0x41) st0) := by
  exact ⟨rfl, rfl⟩

/-- DrawingStaysOnScreen: a request of each of its three kinds. -/
theorem test_witness_drawing :
    drawsBursts (.pixel 0 0 1) = true ∧ drawsBursts (.drawChar true 0 0 1 2 1 0x41) = true
    ∧ drawsBursts (.drawChar false 0 0 1 2 1 0x41) = false ∧ drawsBursts (.writeChar 0x41) = false ∧ st0.TransportAnswers := by
  decide

/-- OffScreenShapesAreSilent: a line just above the screen; a triangle just off each side. -/
theorem test_witness_offScreen :
    (∀ p ∈ (linePixels (0 : Word).toInt (-1 : Word).toInt (5 : Word).toInt (-1 : Word).toInt).logical, ¬st0.OnScreen p)
    ∧ max (-1 : Word).toInt (max (-3 : Word).toInt (-2 : Word).toInt) < 0
    ∧ (st0.ds.width.toNat : Int) ≤ min (128 : Word).toInt (min (129 : Word).toInt (130 : Word).toInt)
    ∧ max (-1 : Word).toInt (max (-9 : Word).toInt (-1 : Word).toInt) < 0
    ∧ (st0.ds.height.toNat : Int) ≤ min (160 : Word).toInt (min (161 : Word).toInt (170 : Word).toInt) := by
  decide

/-- OffScreenShapesAreSilent: a triangle that passes outside the corner (0, 0), its vertices beyond no one edge. -/
theorem test_witness_corner :
    sortByY ⟨(3 : Word).toInt, (-5 : Word).toInt⟩ ⟨(-5 : Word).toInt, (-5 : Word).toInt⟩ ⟨(-5 : Word).toInt, (3 : Word).toInt⟩
      = (⟨3, -5⟩, ⟨-5, -5⟩, ⟨-5, 3⟩)
    ∧ ∀ x y : Int, -5 ≤ y → y ≤ 3 →
      (min (shortEdge ⟨3, -5⟩ ⟨-5, -5⟩ ⟨-5, 3⟩ y) (crossing ⟨3, -5⟩ ⟨-5, 3⟩ y) ≤ x
        ∧ x ≤ max (shortEdge ⟨3, -5⟩ ⟨-5, -5⟩ ⟨-5, 3⟩ y) (crossing ⟨3, -5⟩ ⟨-5, 3⟩ y)) → ¬st0.OnScreen (x, y) := by
  refine ⟨by decide, fun x y _ h2 h hs => ?_⟩
  have hy : 0 ≤ y := hs.2.2.1
  have hx : 0 ≤ x := hs.1
  have hc : max (shortEdge ⟨3, -5⟩ ⟨-5, -5⟩ ⟨-5, 3⟩ y) (crossing ⟨3, -5⟩ ⟨-5, 3⟩ y) < 0 := by
    clear h hs
    interval_cases y <;> decide
  omega

/-- OffScreenShapesAreSilent: all vertices on one row above the screen. -/
theorem test_witness_row :
    sortByY ⟨(3 : Word).toInt, (-1 : Word).toInt⟩ ⟨(5 : Word).toInt, (-1 : Word).toInt⟩ ⟨(4 : Word).toInt, (-1 : Word).toInt⟩
      = (⟨3, -1⟩, ⟨5, -1⟩, ⟨4, -1⟩)
    ∧ ∀ x y : Int, -1 ≤ y → y ≤ -1 → (3 ≤ x ∧ x ≤ 5) → ¬st0.OnScreen (x, y) :=
  ⟨by decide, fun _ _ _ h2 _ hs => absurd hs.2.2.1 (by simp only; omega)⟩

/-- RequestsWriteOnlyTheirRegisters, RequestsLeaveTheBitmapBytes: a request that runs and is none of those the clauses except. -/
theorem test_witness_frame : (Instr.pixel 1 2 3).WellFormed ∧ exec (.pixel 1 2 3) stB = .next (after (.pixel 1 2 3) stB) := by
  exact ⟨by decide, rfl⟩

/-- RequestsLeaveTheBitmapBytes: its clauses, each at an address; the first change listed of a byte is the one that stands. -/
theorem test_witness_bytes :
    stB.MemoryOk ∧ (∀ k ∈ stB.bitmapRace, k.1 % 2 ^ stB.cfg.bmpAw ≠ 0x20 % 2 ^ stB.cfg.bmpAw)
    ∧ memRead (after (.bitmap 0 0 0 1 1 0x20) stB) 0x20 = 0xA5 ∧ memRead (after (.bitmap 0 0 0 1 1 0x20) stB) 0x21 = 0x0F
    ∧ memRead (after (.pixel 0 0 1) stB) 0x21 = 0 := by
  decide

/-- BitmapSpaceReadsWhatWasProvided: a memory in canonical form, an address written over another that equals it modulo
`2^BMP_AW`, and one that is written back to what an unlisted byte reads as. -/
theorem test_witness_memory :
    (hostProvideByte (0x20 + 2 ^ 32) 7 stB).bitmap = [(0x20, 7)] ∧ (hostProvideByte 0x20 0 stB).bitmap = []
    ∧ Memory.wf [(0x20, 7)] = true ∧ Memory.wf [(0x20, 0)] = false ∧ Memory.wf [(0x21, 7), (0x20, 7)] = false := by
  decide

end Sys2Proof.Tests
end

section
/-!
PROOFS. What a request and a step leave unchanged, said once for all requests; then the statements about the trace, the
windows, the bitmap memory and INIT that follow from it.
-/

namespace Sys2Proof.Machine

/-! ## What a request leaves unchanged -/

/-- A request's sections leave the memory and the parameters alone and only append to the trace, whatever the transport answers
(R17, R41, R54); so the request does, where its commit does. -/
theorem perform_frame (i : Instr) (cs : List Critical) (s u : State) :
    let t := perform cs (commitOf i s) u
    (∃ evs, t.trace = u.trace ++ evs) ∧ t.cfg = u.cfg ∧ t.bitmap = u.bitmap ∧ t.bitmapRace = u.bitmapRace := by
  rcases perform_cases cs (commitOf i s) u with
    ⟨-, h⟩ | ⟨pre, c, post, -, ⟨-, -, h⟩ | ⟨-, -, h⟩ | ⟨ms, -, -, h⟩⟩
  · rw [h, commitOf_frame, afterAll_eq]
    exact ⟨⟨_, rfl⟩, rfl, rfl, rfl⟩
  all_goals
    rw [h, afterAll_eq]
    exact ⟨⟨_, List.append_assoc _ _ _⟩, rfl, rfl, rfl⟩

/-- The display registers after a request are the old ones, or those of its commit, from a state that differs from the one before
only in what the sections write (R226). -/
theorem perform_ds (cs : List Critical) (commit : State → State) (s : State) :
    (perform cs commit s).ds = s.ds
    ∨ ∃ u : State, u.ds = s.ds ∧ u.cfg = s.cfg ∧ (perform cs commit s).ds = (commit u).ds := by
  rcases perform_cases cs commit s with
    ⟨-, h⟩ | ⟨pre, c, post, -, ⟨-, -, h⟩ | ⟨-, -, h⟩ | ⟨ms, -, -, h⟩⟩
  · right
    refine ⟨afterAll cs { s with pendMad := none }, ?_, ?_, by rw [h]; rfl⟩ <;> rw [afterAll_eq]
  all_goals
    left
    rw [h, afterAll_eq]
    rfl

/-- Only RUN_TABLE with a table id of 5 to 7 is ill-formed (R67). -/
theorem eq_runTable_of_not_wellFormed {i : Instr} (h : ¬ i.WellFormed) : ∃ t : BitVec 3, i = .runTable t ∧ 5 ≤ t.toNat := by
  cases i
  case runTable t => exact ⟨t, rfl, by simpa [Instr.WellFormed, Instr.wf] using h⟩
  all_goals exact absurd rfl h

/-- What a request can do: it is performed, or it is a RUN_TABLE the decoder never gives and takes IllegalRequest. -/
theorem exec_cases {i : Instr} {s t : State} (h : exec i s = .next t) :
    t = perform (sectionsOf i s) (commitOf i s) (settledFor i s) ∨ (settledFor i s = s ∧ t = takeIllegalRequest s) := by
  by_cases hw : i.WellFormed
  · rw [exec_eq i s hw] at h
    exact .inl (Host.Outcome.next.inj h).symm
  · obtain ⟨n, rfl, hn⟩ := eq_runTable_of_not_wellFormed hw
    rw [exec_runTable_illegal n s hn] at h
    exact .inr ⟨rfl, (Host.Outcome.next.inj h).symm⟩

/-- The changes of another agent touch the bitmap memory alone (R50). -/
@[simp] theorem settledFor_trace (i : Instr) (s : State) : (settledFor i s).trace = s.trace := by cases i <;> rfl
@[simp] theorem settledFor_cfg (i : Instr) (s : State) : (settledFor i s).cfg = s.cfg := by cases i <;> rfl
@[simp] theorem settledFor_ds (i : Instr) (s : State) : (settledFor i s).ds = s.ds := by cases i <;> rfl

/-- No change lands but during a BITMAP (R50). -/
theorem settledFor_eq_self {i : Instr} (h : ∀ x y w h c ad, i ≠ .bitmap x y w h c ad) (s : State) : settledFor i s = s := by
  cases i
  case bitmap x y w hh c ad => exact absurd rfl (h x y w hh c ad)
  all_goals rfl

/-- The changes that land during a request are all of them or none. -/
theorem settledFor_cases (i : Instr) (s : State) : settledFor i s = s ∨ ∃ n, settledFor i s = settleRace n s := by
  cases i
  case bitmap x y w h c ad => exact .inr ⟨_, rfl⟩
  all_goals exact .inl rfl

/-- What every request leaves: a longer trace, the parameters, and the bitmap memory but for the changes of another agent. -/
theorem exec_frame {i : Instr} {s t : State} (h : exec i s = .next t) :
    (∃ evs, t.trace = s.trace ++ evs) ∧ t.cfg = s.cfg
      ∧ t.bitmap = (settledFor i s).bitmap ∧ t.bitmapRace = (settledFor i s).bitmapRace := by
  rcases exec_cases h with rfl | ⟨hs, rfl⟩
  · simpa using perform_frame i (sectionsOf i s) s (settledFor i s)
  · rw [hs]
    exact ⟨⟨[], by simp⟩, rfl, rfl, rfl⟩

/-- The display registers after a request are the old ones or those of its commit. -/
theorem exec_ds {i : Instr} {s t : State} (h : exec i s = .next t) :
    t.ds = s.ds ∨ ∃ u : State, u.ds = s.ds ∧ u.cfg = s.cfg ∧ t.ds = (commitOf i s u).ds := by
  rcases exec_cases h with rfl | ⟨-, rfl⟩
  · simpa using perform_ds (sectionsOf i s) (commitOf i s) (settledFor i s)
  · exact .inl rfl

/-! ## What a step leaves unchanged -/

/-- A step only appends to the trace and changes no parameter. -/
theorem step_trace_cfg {s t : State} (h : step s = .next t) : (∃ evs, t.trace = s.trace ++ evs) ∧ t.cfg = s.cfg := by
  obtain ⟨-, rfl | ⟨-, -, rfl⟩ | ⟨why, rest, -, -, rfl⟩ | ⟨i, rest, -, -, he⟩⟩ := step_cases h
  · exact ⟨⟨[], by simp⟩, rfl⟩
  · exact ⟨⟨[], by simp⟩, rfl⟩
  · exact ⟨⟨[], by simp⟩, rfl⟩
  · obtain ⟨htrace, hcfg, -, -⟩ := exec_frame he
    exact ⟨htrace, hcfg⟩

/-- The bitmap memory after a step is the old one, or the old one with another agent's changes landed. -/
theorem step_bitmap {s t : State} (h : step s = .next t) :
    t.bitmap = s.bitmap ∨ ∃ n, t.bitmap = (settleRace n s).bitmap := by
  obtain ⟨-, rfl | ⟨-, -, rfl⟩ | ⟨why, rest, -, -, rfl⟩ | ⟨i, rest, -, -, he⟩⟩ := step_cases h
  · exact .inl rfl
  · exact .inl rfl
  · exact .inl rfl
  · obtain ⟨-, -, hbitmap, -⟩ := exec_frame he
    rw [hbitmap]
    rcases settledFor_cases i (accept rest s) with hs | ⟨n, hs⟩ <;> rw [hs]
    · exact .inl rfl
    · exact .inr ⟨n, rfl⟩

/-- The display registers after a step are the old ones or those of a request's commit. -/
theorem step_ds {s t : State} (h : step s = .next t) :
    t.ds = s.ds ∨ ∃ (i : Instr) (s' u : State), u.ds = s.ds ∧ u.cfg = s.cfg ∧ t.ds = (commitOf i s' u).ds := by
  obtain ⟨-, rfl | ⟨-, -, rfl⟩ | ⟨why, rest, -, -, rfl⟩ | ⟨i, rest, -, -, he⟩⟩ := step_cases h
  · exact .inl rfl
  · exact .inl rfl
  · exact .inl rfl
  · rcases exec_ds he with hds | ⟨u, hu⟩
    · exact .inl hds
    · exact .inr ⟨i, _, u, hu⟩

/-- Settles O10: the frame of a step. -/
theorem stepOnlyAppendsToTheTrace : Obligations.StepOnlyAppendsToTheTrace := fun _ _ => step_trace_cfg

/-- Settles O19: a step's only writes are the landing of another agent's changes, and each write keeps the form. -/
theorem stepKeepsTheMemoryForm : Obligations.StepKeepsTheMemoryForm := by
  refine ⟨fun s t hs h => ?_, fun s a b hs => hostProvideByte_wf a b hs⟩
  rcases step_bitmap h with hb | ⟨n, hb⟩ <;> rw [State.MemoryOk, hb]
  · exact hs
  · exact settleRace_wf n hs

/-! ## The windows -/

@[simp] theorem logicalWidth_zero (cfg : Config) : logicalWidth cfg 0 = BitVec.ofNat 16 cfg.panelW := by simp [logicalWidth]
@[simp] theorem logicalHeight_zero (cfg : Config) : logicalHeight cfg 0 = BitVec.ofNat 16 cfg.panelH := by simp [logicalHeight]

/-- A commit leaves the logical size in step with the rotation: only INIT and SET_ROTATION write them, together (R29). -/
theorem commitOf_sizeOk (i : Instr) (s : State) {u : State} (h : u.SizeOk) : (commitOf i s u).SizeOk := by
  cases i
  case init v => exact ⟨(logicalWidth_zero _).symm, (logicalHeight_zero _).symm⟩
  case setRotation r => exact ⟨rfl, rfl⟩
  all_goals exact h

/-- The logical size stays in step with the rotation. -/
theorem step_sizeOk {s t : State} (hs : s.SizeOk) (h : step s = .next t) : t.SizeOk := by
  obtain ⟨-, hcfg⟩ := step_trace_cfg h
  rcases step_ds h with hds | ⟨i, s', u, hu, hucfg, hds⟩
  · simpa [State.SizeOk, hds, hcfg] using hs
  · have hcommit : (commitOf i s' u).cfg = u.cfg := by rw [commitOf_frame]
    have := commitOf_sizeOk i s' (u := u) (by simpa [State.SizeOk, hu, hucfg] using hs)
    simpa [State.SizeOk, hds, hcfg, hcommit, hucfg] using this

/-- The offsets after a commit are the old ones, or those of a variant (INIT, R83). -/
theorem commitOf_offsets (i : Instr) (s u : State) :
    ((commitOf i s u).ds.colOffset = u.ds.colOffset ∧ (commitOf i s u).ds.rowOffset = u.ds.rowOffset)
    ∨ ∃ v, (commitOf i s u).ds.colOffset = (variantCfg u.cfg v).colOffset
        ∧ (commitOf i s u).ds.rowOffset = (variantCfg u.cfg v).rowOffset := by
  cases i
  case init v => exact .inr ⟨v, rfl, rfl⟩
  all_goals exact .inl ⟨rfl, rfl⟩

/-- Whatever the rotation, the greater logical side is the greater side of the panel (R29). -/
theorem max_logical_sides {cfg : Config} (h : cfg.PanelOk) (r : BitVec 2) :
    max (logicalWidth cfg r).toNat (logicalHeight cfg r).toNat = max cfg.panelW cfg.panelH := by
  obtain ⟨-, hw, -, hh⟩ := h
  have hmodW : cfg.panelW % 2 ^ 16 = cfg.panelW := Nat.mod_eq_of_lt (by omega)
  have hmodH : cfg.panelH % 2 ^ 16 = cfg.panelH := Nat.mod_eq_of_lt (by omega)
  cases hr : r.getLsbD 0
  · simp only [logicalWidth, logicalHeight, hr, Bool.false_eq_true, if_false, BitVec.toNat_ofNat, hmodW, hmodH]
  · simp only [logicalWidth, logicalHeight, hr, if_true, BitVec.toNat_ofNat, hmodW, hmodH, max_comm]

/-- Where the logical size is the rotated panel's, that a window fits does not depend on the rotation. -/
theorem windowFits_iff {s : State} (hp : s.cfg.PanelOk) (hs : s.SizeOk) :
    s.WindowFits ↔ max s.cfg.panelW s.cfg.panelH + max s.ds.colOffset.toNat s.ds.rowOffset.toNat ≤ 65536 := by
  obtain ⟨hw, hh⟩ := hs
  rw [State.WindowFits, hw, hh, max_logical_sides hp]

/-- Settles O17: the greater side is the panel's at every rotation, and the offsets are the old ones or a variant's. -/
theorem stepKeepsWindowsWithinAWord : Obligations.StepKeepsWindowsWithinAWord := by
  intro s t hp ho hs hf h
  obtain ⟨-, hcfg⟩ := step_trace_cfg h
  rw [windowFits_iff hp hs] at hf
  rw [windowFits_iff (hcfg ▸ hp) (step_sizeOk hs h), hcfg]
  rcases step_ds h with hds | ⟨i, s', u, hu, hucfg, hds⟩
  · rwa [hds]
  · rw [hds]
    rcases commitOf_offsets i s' u with ⟨hcol, hrow⟩ | ⟨v, hcol, hrow⟩
    · rwa [hcol, hrow, hu]
    · rw [hcol, hrow, hucfg]
      exact ho ⟨v.toNat, v.isLt⟩

/-! ## The bitmap memory -/

/-- The first cell's address reads its byte. -/
theorem Memory.read_head (c : Host.Cell) (m : List Host.Cell) : Memory.read (c :: m) c.1 = c.2 := if_pos rfl

/-- In canonical form the first cell's address is the least one that does not read as unlisted. -/
theorem Memory.head_le {k l : Nat} {v w : Byte} {m n : List Host.Cell} (hm : Memory.wf ((k, v) :: m) = true)
    (hn : Memory.wf ((l, w) :: n) = true) (h : ∀ a, Memory.read ((k, v) :: m) a = Memory.read ((l, w) :: n) a) : l ≤ k := by
  obtain ⟨hv, -, -⟩ := (Memory.wf_cons _ _ _).mp hm
  obtain ⟨-, hl, -⟩ := (Memory.wf_cons _ _ _).mp hn
  by_contra hlt
  have hbelow : Memory.read ((l, w) :: n) k = Memory.unlisted := Memory.read_below fun c hc => by
    rcases List.mem_cons.mp hc with rfl | hc
    · omega
    · have := hl c hc; omega
  exact hv ((Memory.read_head (k, v) m).symm.trans ((h k).trans hbelow))

/-- Two memories in canonical form that read alike are equal. -/
theorem Memory.eq_of_read_eq {m m' : List Host.Cell} (hm : Memory.wf m = true) (hm' : Memory.wf m' = true)
    (h : ∀ a, Memory.read m a = Memory.read m' a) : m = m' := by
  induction m generalizing m' with
  | nil =>
    cases m' with
    | nil => rfl
    | cons c' m' =>
      obtain ⟨hv', -, -⟩ := (Memory.wf_cons _ _ _).mp hm'
      exact absurd ((Memory.read_head c' m').symm.trans (h c'.1).symm) hv'
  | cons c m ih =>
    obtain ⟨hv, hk, hwf⟩ := (Memory.wf_cons _ _ _).mp hm
    cases m' with
    | nil => exact absurd ((Memory.read_head c m).symm.trans (h c.1)) hv
    | cons c' m' =>
      obtain ⟨hv', hk', hwf'⟩ := (Memory.wf_cons _ _ _).mp hm'
      obtain ⟨k, v⟩ := c
      obtain ⟨k', v'⟩ := c'
      obtain rfl : k = k' := Nat.le_antisymm (Memory.head_le hm' hm fun a => (h a).symm) (Memory.head_le hm hm' h)
      obtain rfl : v = v' := by simpa [Memory.read] using h k
      have htail : ∀ a, Memory.read m a = Memory.read m' a := fun a => by
        by_cases ha : a = k
        · rw [ha, Memory.read_below hk, Memory.read_below hk']
        · simpa [Memory.read, ha] using h a
      rw [ih hwf hwf' htail]

/-- A read behind the host's write (R264). -/
theorem memRead_hostProvideByte {s : State} (h : s.MemoryOk) (a a' : Nat) (b : Byte) :
    memRead (hostProvideByte a b s) a' = if bitmapAddr s a' = bitmapAddr s a then b else memRead s a' :=
  Memory.read_write _ b h _

/-- Settles O60: addresses are reduced, a read behind a write, and extensionality of the canonical form. -/
theorem bitmapSpaceReadsWhatWasProvided : Obligations.BitmapSpaceReadsWhatWasProvided := by
  refine ⟨fun s a a' b h => ⟨?_, memRead_hostProvideByte h a a' b⟩, fun m m' => Memory.eq_of_read_eq⟩
  simp only [memRead, bitmapAddr, Nat.add_mod_right]

/-- Writes one over another keep the canonical form. -/
theorem Memory.foldr_write_wf (addr : Host.Cell → Nat) (cells : List Host.Cell) {m : List Host.Cell}
    (h : Memory.wf m = true) : Memory.wf (cells.foldr (fun c m => Memory.write (addr c) c.2 m) m) = true := by
  induction cells with
  | nil => exact h
  | cons c l ih => exact Memory.write_wf _ _ ih

/-- Writes one over another: the first one listed of an address stands, and an address none of them writes reads as before. -/
theorem Memory.read_foldr_write (addr : Host.Cell → Nat) (cells : List Host.Cell) {m : List Host.Cell}
    (h : Memory.wf m = true) (x : Nat) :
    Memory.read (cells.foldr (fun c m => Memory.write (addr c) c.2 m) m) x
      = ((cells.find? fun c => addr c == x).map (·.2)).getD (Memory.read m x) := by
  induction cells with
  | nil => rfl
  | cons c l ih =>
    rw [List.foldr_cons, Memory.read_write _ _ (Memory.foldr_write_wf addr l h), ih, List.find?_cons]
    by_cases hc : addr c = x
    · simp [hc]
    · simp [beq_false_of_ne hc, Ne.symm hc]

/-- Once another agent's changes have landed, a byte it was changing reads as its new value and every other byte as before (R50). -/
theorem memRead_settleRace (n : Nat) {s : State} (h : s.MemoryOk) (a : Nat) :
    memRead (settleRace n s) a = (raceByte s a).getD (memRead s a) :=
  Memory.read_foldr_write (fun c => bitmapAddr s c.1) s.bitmapRace h (bitmapAddr s a)

/-- Settles O59: a request writes no byte; what another agent changes lands during a BITMAP alone. -/
theorem requestsLeaveTheBitmapBytes : Obligations.RequestsLeaveTheBitmapBytes := by
  intro i s t a hs h
  obtain ⟨-, hcfg, hbitmap, hrace⟩ := exec_frame h
  have hread : memRead t a = memRead (settledFor i s) a := by simp [memRead, bitmapAddr, hcfg, hbitmap]
  rw [hread]
  refine ⟨fun hi => ?_, fun hnone => ?_, ?_⟩
  · rw [settledFor_eq_self hi] at hrace ⊢
    exact ⟨rfl, hrace⟩
  · have hbyte : raceByte s a = none := by simpa [raceByte, bitmapAddr] using hnone
    rcases settledFor_cases i s with hi | ⟨n, hi⟩
    · rw [hi]
    · rw [hi, memRead_settleRace n hs, hbyte, Option.getD_none]
  · rintro b ⟨x, y, w, hh, c, ad, rfl⟩ hb
    have hbyte : raceByte s a = some b := hb
    rw [settledFor, memRead_settleRace _ hs, hbyte, Option.getD_some]

/-! ## INIT -/

/-- INIT's head words decode to it (R61, R65). -/
theorem decode_init (v : BitVec 2) (rest : List Word) :
    decode (BitVec.ofNat 16 (0x0100 + v.toNat) :: rest) = .ok (.init v) rest := by
  have hr : controlRows[1] ∈ rows := by simp [rows, controlRows]
  have hmatch : controlRows[1].matchesHead (BitVec.ofNat 16 (0x0100 + v.toNat)) = true := by revert v; decide
  have htable : badTableId (BitVec.ofNat 16 (0x0100 + v.toNat)) = false := by revert v; decide
  have hfield : (BitVec.ofNat 16 (0x0100 + v.toNat)).extractLsb' 0 2 = v := by revert v; decide
  exact decode_eq (ops := []) (decodeHead_eq hr hmatch htable) rfl (congrArg (some ∘ Instr.init) hfield)

/-- The typed steps INIT replays: those of the variant's tables in order, then its own MADCTL (R83). -/
def initCommands (cfg : Config) (v : BitVec 2) : List CmdStep :=
  ((variantCfg cfg v).tables.flatMap fun t => cfg.initTables.get t)
    ++ (match (variantCfg cfg v).postMadctl with
        | none => []
        | some m => [⟨cfg.opMadctl, [m], none⟩])

/-- INIT's critical sections are the command steps of `initCommands`. -/
theorem initSteps_eq (cfg : Config) (v : BitVec 2) :
    initSteps cfg v = (initCommands cfg v).map fun st => commandStep cfg st.opcode st.args st.delay := by
  simp only [initSteps, initCommands, List.map_append, List.map_flatMap]
  cases (variantCfg cfg v).postMadctl <;> rfl

/-- Settles O33: INIT's sections are command steps, so their events and the madctl they leave pending are those of the steps. -/
theorem initReplaysAndCommits : Obligations.InitReplaysAndCommits := by
  intro s v rest h
  refine ⟨decode_init v rest, ?_⟩
  have hpend := lastSnoop_commandSteps s.cfg (initCommands s.cfg v) none
  have hevents := commandSteps_events s.cfg (initCommands s.cfg v)
  rw [← initSteps_eq] at hpend hevents
  rw [exec_eq _ _ rfl]
  simp only [sectionsOf, commitOf, settledFor]
  rw [perform_answered_eq _ _ _ h (initSteps_payload _ _), hpend, hevents, Option.or_none]
  rfl

end Sys2Proof.Machine
end

section
/-!
PROOFS. The encoder's words decode to the request they encode, and what the decoder gives is well-formed.
-/

namespace Sys2Proof

/-! ## Fields of a word from its bytes -/

@[simp] theorem hiByte_ofBytes (hi lo : Byte) : hiByte (ofBytes hi lo) = hi := BitVec.extractLsb'_append_eq_left
@[simp] theorem loByte_ofBytes (hi lo : Byte) : loByte (ofBytes hi lo) = lo := BitVec.extractLsb'_append_eq_right
@[simp] theorem opcOf_headWord (opc sub : Byte) : opcOf (headWord opc sub) = opc := BitVec.extractLsb'_append_eq_left
@[simp] theorem subOf_headWord (opc sub : Byte) : subOf (headWord opc sub) = sub := BitVec.extractLsb'_append_eq_right

/-- The bitmap address from the two words it is sent as (R62). -/
@[simp] theorem ofAddrWords_extract (addr : BitVec 32) :
    ofAddrWords (addr.extractLsb' 0 16) (addr.extractLsb' 16 16) = addr :=
  (BitVec.extractLsb'_append_extractLsb'_eq_extractLsb' rfl).trans BitVec.extractLsb'_eq_self

/-- The mask of a row whose whole `SUB` is an immediate keeps the opcode alone. -/
theorem headWord_and_opcMask (opc sub : Byte) : headWord opc sub &&& 0xFF00 = headWord opc 0 := by
  have h : headWord opc sub &&& headWord 0xFF 0 = (opc &&& 0xFF) ++ (sub &&& 0) := BitVec.and_append
  rwa [show sub &&& 0 = 0 from BitVec.and_zero, show opc &&& 0xFF = opc from BitVec.and_allOnes] at h

/-- Only RUN_TABLE has a table id (R67). -/
theorem badTableId_headWord {opc : Byte} (h : opc ≠ 0x02) (sub : Byte) : badTableId (headWord opc sub) = false := by
  simp only [badTableId, opcOf_headWord, beq_false_of_ne h, Bool.false_and]

/-! ## What is encoded decodes -/

/-- A head word of the `k`-th row with its operand words decodes to what the row builds of them. -/
theorem decode_row (k : Nat) {r : Row} {w0 : Word} {ops : List Word} {i : Instr} (rest : List Word)
    (hr : rows[k]? = some r) (hmatch : r.matchesHead w0 = true) (ht : badTableId w0 = false)
    (hl : ops.length = r.operands) (hb : r.build w0 ops = some i) : decode (w0 :: (ops ++ rest)) = .ok i rest :=
  decode_eq (decodeHead_eq (List.mem_of_getElem? hr) hmatch ht) hl hb

/-- A request whose whole `SUB` is an immediate byte: its head word alone decodes to it (R62). -/
theorem decode_byteRow (k : Nat) (opc b : Byte) (build : Byte → Instr) (rest : List Word) {name : String}
    (hr : rows[k]? = some ⟨name, headWord opc 0, 0xFF00, 0, fun w0 _ => some (build (subOf w0))⟩) (h : opc ≠ 0x02) :
    decode (headWord opc b :: rest) = .ok (build b) rest :=
  decode_row k (ops := []) rest hr (beq_iff_eq.mpr (headWord_and_opcMask opc b)) (badTableId_headWord h b) rfl
    (congrArg (some ∘ build) (subOf_headWord opc b))

/-- The words of a well-formed request decode to it, and leave the words behind them (R60 to R65). -/
theorem decode_encode {i : Instr} (rest : List Word) (h : i.WellFormed) : decode (encode i ++ rest) = .ok i rest := by
  cases i
  case runTable t =>
    have key : ∀ t : BitVec 3, t.toNat < 5 → headWord 0x02 (t.setWidth 8) &&& 0xFFF8 = 0x0200
        ∧ badTableId (headWord 0x02 (t.setWidth 8)) = false
        ∧ (headWord 0x02 (t.setWidth 8)).extractLsb' 0 3 = t := by decide
    obtain ⟨hmatch, htable, hfield⟩ := key t (by simpa [Instr.WellFormed, Instr.wf] using h)
    exact decode_row 2 (ops := []) rest rfl (beq_iff_eq.mpr hmatch) htable rfl (congrArg (some ∘ Instr.runTable) hfield)
  all_goals clear h
  case init v =>
    refine decode_row 1 (ops := []) rest rfl ?_ ?_ rfl (congrArg (some ∘ Instr.init) ?_) <;> revert v <;> decide
  case invert f =>
    refine decode_row 5 (ops := []) rest rfl ?_ ?_ rfl (congrArg (some ∘ Instr.invert) ?_) <;> revert f <;> decide
  case setTextWrap f =>
    refine decode_row 30 (ops := []) rest rfl ?_ ?_ rfl (congrArg (some ∘ Instr.setTextWrap) ?_) <;> revert f <;> decide
  case circleHelper m x0 y0 r c =>
    refine decode_row 17 (ops := [x0, y0, r, c]) rest rfl ?_ ?_ rfl (congrArg (fun m => some (Instr.circleHelper m x0 y0 r c)) ?_)
      <;> revert m <;> decide
  case fillCircleHelper m x0 y0 r e c =>
    refine decode_row 19 (ops := [x0, y0, r, e, c]) rest rfl ?_ ?_ rfl
      (congrArg (fun m => some (Instr.fillCircleHelper m x0 y0 r e c)) ?_) <;> revert m <;> decide
  case setRotation r => exact decode_byteRow 3 0x03 r .setRotation rest rfl (by decide)
  case writeChar code => exact decode_byteRow 26 0x29 code .writeChar rest rfl (by decide)
  case setTextScale sc => exact decode_byteRow 29 0x2C sc .setTextScale rest rfl (by decide)
  case color565 r g b =>
    exact decode_row 8 (ops := [ofBytes r g, ofBytes 0 b]) rest rfl rfl rfl rfl
      (by show some (Instr.color565 _ _ _) = _; simp)
  case bitmap x y w hh c addr =>
    exact decode_row 24 (ops := [x, y, w, hh, c, _, _]) rest rfl rfl rfl rfl
      (by show some (Instr.bitmap _ _ _ _ _ (ofAddrWords _ _)) = _; rw [ofAddrWords_extract])
  case drawChar g x y fg bg sc code =>
    have hg : (headWord 0x28 ((BitVec.ofBool g).setWidth 8)).getLsbD 0 = g := by revert g; decide
    refine decode_row 25 (ops := [x, y, fg, bg, ofBytes sc code]) rest rfl (by revert g; decide) (by revert g; decide) rfl ?_
    show some (Instr.drawChar _ _ _ _ _ (hiByte _) (loByte _)) = _
    rw [hg, hiByte_ofBytes, loByte_ofBytes]
  case nop => exact decode_row 0 (ops := []) rest rfl rfl rfl rfl rfl
  case getRotation => exact decode_row 4 (ops := []) rest rfl rfl rfl rfl rfl
  case getWidth => exact decode_row 6 (ops := []) rest rfl rfl rfl rfl rfl
  case getHeight => exact decode_row 7 (ops := []) rest rfl rfl rfl rfl rfl
  case clearStatus => exact decode_row 9 (ops := []) rest rfl rfl rfl rfl rfl
  case pixel x y c => exact decode_row 10 (ops := [x, y, c]) rest rfl rfl rfl rfl rfl
  case hline x y w c => exact decode_row 11 (ops := [x, y, w, c]) rest rfl rfl rfl rfl rfl
  case vline x y hh c => exact decode_row 12 (ops := [x, y, hh, c]) rest rfl rfl rfl rfl rfl
  case fillRect x y w hh c => exact decode_row 13 (ops := [x, y, w, hh, c]) rest rfl rfl rfl rfl rfl
  case rect x y w hh c => exact decode_row 14 (ops := [x, y, w, hh, c]) rest rfl rfl rfl rfl rfl
  case line x0 y0 x1 y1 c => exact decode_row 15 (ops := [x0, y0, x1, y1, c]) rest rfl rfl rfl rfl rfl
  case circle x0 y0 r c => exact decode_row 16 (ops := [x0, y0, r, c]) rest rfl rfl rfl rfl rfl
  case fillCircle x0 y0 r c => exact decode_row 18 (ops := [x0, y0, r, c]) rest rfl rfl rfl rfl rfl
  case roundRect x y w hh r c => exact decode_row 20 (ops := [x, y, w, hh, r, c]) rest rfl rfl rfl rfl rfl
  case fillRoundRect x y w hh r c => exact decode_row 21 (ops := [x, y, w, hh, r, c]) rest rfl rfl rfl rfl rfl
  case triangle x0 y0 x1 y1 x2 y2 c => exact decode_row 22 (ops := [x0, y0, x1, y1, x2, y2, c]) rest rfl rfl rfl rfl rfl
  case fillTriangle x0 y0 x1 y1 x2 y2 c => exact decode_row 23 (ops := [x0, y0, x1, y1, x2, y2, c]) rest rfl rfl rfl rfl rfl
  case setCursor x y => exact decode_row 27 (ops := [x, y]) rest rfl rfl rfl rfl rfl
  case setTextColor fg bg => exact decode_row 28 (ops := [fg, bg]) rest rfl rfl rfl rfl rfl

/-! ## What is decoded is well-formed -/

/-- Of the rows of the opcode map only RUN_TABLE's builds a RUN_TABLE, with the head word's table id (R65). -/
theorem build_runTable {r : Row} (hr : r ∈ rows) {w0 : Word} {ops : List Word} {t : BitVec 3}
    (h : r.build w0 ops = some (.runTable t)) : r.pattern = 0x0200 ∧ r.mask = 0xFFF8 ∧ t = w0.extractLsb' 0 3 := by
  revert r
  simp only [rows, controlRows, lineRows, circleRows, triangleRows, textRows, List.forall_mem_append, List.forall_mem_cons]
  repeat' apply And.intro
  all_goals grind

/-- A head word decodes to a row of the opcode map that it matches, and has no table id of 5 to 7. -/
theorem decodeHead_ok {w0 : Word} {r : Row} (h : decodeHead w0 = .ok r) :
    r ∈ rows ∧ r.matchesHead w0 = true ∧ badTableId w0 = false := by
  unfold decodeHead at h
  split at h
  · cases h
  · rename_i r' hrow
    split at h
    · cases h
    · rename_i hbad
      cases h
      exact ⟨List.mem_of_find?_eq_some hrow, List.find?_some (p := fun q : Row => q.matchesHead w0) hrow, Bool.eq_false_iff.mpr hbad⟩

/-- What the decoder accepts is well-formed: it rejects the table ids of 5 to 7 (R67). -/
theorem decode_wellFormed {ws rest : List Word} {i : Instr} (h : decode ws = .ok i rest) : i.WellFormed := by
  by_contra hw
  obtain ⟨t, rfl, ht⟩ := Machine.eq_runTable_of_not_wellFormed hw
  obtain ⟨w0, tl, r, -, hhead, -, hbuild, -⟩ := decode_ok h
  obtain ⟨hr, hmatch, hbad⟩ := decodeHead_ok hhead
  obtain ⟨hpattern, hmask, rfl⟩ := build_runTable hr hbuild
  have hopc : opcOf w0 = 0x02 := calc
    opcOf w0 = opcOf w0 &&& opcOf 0xFFF8 := BitVec.and_allOnes.symm
    _ = opcOf (w0 &&& 0xFFF8) := BitVec.extractLsb'_and.symm
    _ = 0x02 := by rw [← hmask, beq_iff_eq.mp hmatch, hpattern]; rfl
  simp only [badTableId, hopc, ht, beq_self_eq_true, decide_true, Bool.and_self, Bool.true_eq_false] at hbad

end Sys2Proof
end

section
/-!
PROOFS. How a request ends and what it leaves of the words, the status and the registers, said once for all requests; then the
statements about the control state, the fault bits, the registers and the host's reads that follow from it.
-/

namespace Sys2Proof.Machine

/-! ## What the sections and the commit of a request leave -/

@[simp] theorem settledFor_status (i : Instr) (s : State) : (settledFor i s).status = s.status := by cases i <;> rfl
@[simp] theorem settledFor_resp (i : Instr) (s : State) : (settledFor i s).resp = s.resp := by cases i <;> rfl
@[simp] theorem settledFor_owned (i : Instr) (s : State) : (settledFor i s).owned = s.owned := by cases i <;> rfl
@[simp] theorem settledFor_held (i : Instr) (s : State) : (settledFor i s).held = s.held := by cases i <;> rfl
@[simp] theorem settledFor_latched (i : Instr) (s : State) : (settledFor i s).latched = s.latched := by cases i <;> rfl
@[simp] theorem settledFor_chan (i : Instr) (s : State) : (settledFor i s).chan = s.chan := by cases i <;> rfl
@[simp] theorem settledFor_transport (i : Instr) (s : State) : (settledFor i s).transport = s.transport := by cases i <;> rfl

@[simp] theorem afterAll_status (cs : List Critical) (s : State) : (afterAll cs s).status = s.status := by rw [afterAll_eq]
@[simp] theorem afterAll_resp (cs : List Critical) (s : State) : (afterAll cs s).resp = s.resp := by rw [afterAll_eq]

/-! ## The two ends of a request -/

/-- The request has ended: the block is not held, `BUSY` is 0, the bus is released, the hidden state is discarded (R66, R226). -/
structure State.Done (t : State) : Prop where
  held : t.held = none
  busy : t.busy = false
  owned : t.owned = false
  pendMad : t.pendMad = none
  window : t.window = none

/-- The request has not ended and never will: the block is held inside a critical section with `BUSY = 1` (R223). -/
structure State.Hung (t : State) : Prop where
  held : t.held ≠ none
  busy : t.busy = true
  owned : t.owned = true

/-- A request all of whose sections are answered ends in its commit. -/
theorem endRequest_done (i : Instr) (cs : List Critical) (s : State) {u : State} (hheld : u.held = none)
    (howned : u.owned = false) : (endRequest (commitOf i s (afterAll cs { u with pendMad := none }))).Done := by
  rw [commitOf_frame, afterAll_eq]
  exact ⟨hheld, busy_clearBusy_bits _, by simp [howned], rfl, rfl⟩

/-- A request of a block that is not held and does not own the bus ends or is held for ever. -/
theorem perform_ends (i : Instr) (cs : List Critical) (s : State) {u : State} (hheld : u.held = none)
    (howned : u.owned = false) : (perform cs (commitOf i s) u).Done ∨ (perform cs (commitOf i s) u).Hung := by
  rcases perform_cases cs (commitOf i s) u with
    ⟨-, h⟩ | ⟨pre, c, post, -, ⟨-, -, h⟩ | ⟨-, -, h⟩ | ⟨ms, -, -, h⟩⟩ <;> rw [h]
  · exact .inl (endRequest_done i cs s hheld howned)
  · rw [afterAll_eq]
    exact .inl ⟨hheld, busy_clearBusy_bits _, rfl, rfl, rfl⟩
  · exact .inr ⟨nofun, busy_setBusy_bits _, rfl⟩
  · exact .inr ⟨nofun, busy_setBusy_bits _, rfl⟩

/-- Whatever the transport does, a request consumes no further word and leaves the reserved status bits 0 (R23, R66). -/
theorem perform_words (i : Instr) (cs : List Critical) (s u : State) :
    let t := perform cs (commitOf i s) u
    t.latched = u.latched ∧ t.chan = u.chan ∧ t.StatusOk := by
  rcases perform_cases cs (commitOf i s) u with
    ⟨-, h⟩ | ⟨pre, c, post, -, ⟨-, -, h⟩ | ⟨-, -, h⟩ | ⟨ms, -, -, h⟩⟩
  · rw [h, commitOf_frame, afterAll_eq]
    exact ⟨rfl, rfl, clearBits_masked _ _⟩
  · rw [h, afterAll_eq]
    exact ⟨rfl, rfl, clearBits_masked _ _⟩
  all_goals
    rw [h, afterAll_eq]
    exact ⟨rfl, rfl, setBits_masked _ _⟩

/-- A well-formed request of a block that is not held and does not own the bus ends or is held for ever. -/
theorem exec_ends {i : Instr} {s t : State} (hw : i.WellFormed) (h : exec i s = .next t) (hheld : s.held = none)
    (howned : s.owned = false) : t.Done ∨ t.Hung := by
  rw [exec_eq i s hw] at h
  obtain rfl := Host.Outcome.next.inj h
  exact perform_ends i _ s (by simpa using hheld) (by simpa using howned)

/-- A well-formed request consumes no further word and leaves the reserved status bits 0. -/
theorem exec_words {i : Instr} {s t : State} (hw : i.WellFormed) (h : exec i s = .next t) :
    t.latched = s.latched ∧ t.chan = s.chan ∧ t.StatusOk := by
  rw [exec_eq i s hw] at h
  obtain rfl := Host.Outcome.next.inj h
  simpa using perform_words i (sectionsOf i s) s (settledFor i s)

/-- What one step can do: the cases of `step_cases`, where the request that is decoded is a well-formed one. -/
theorem step_request_cases {s t : State} (h : step s = .next t) :
    s.held = none ∧
      (t = s
      ∨ (decode s.waiting = .needOperands ∧ t = awaitOperands s)
      ∨ (∃ why rest, decode s.waiting = .illegal why rest ∧ t = takeIllegalRequest (accept rest s))
      ∨ (∃ i rest, decode s.waiting = .ok i rest ∧ i.WellFormed ∧ exec i (accept rest s) = .next t)) := by
  obtain ⟨hheld, rfl | ⟨hd, -, rfl⟩ | ⟨why, rest, hd, -, rfl⟩ | ⟨i, rest, hd, -, he⟩⟩ := step_cases h
  · exact ⟨hheld, .inl rfl⟩
  · exact ⟨hheld, .inr (.inl ⟨hd, rfl⟩)⟩
  · exact ⟨hheld, .inr (.inr (.inl ⟨why, rest, hd, rfl⟩))⟩
  · exact ⟨hheld, .inr (.inr (.inr ⟨i, rest, hd, decode_wellFormed hd, he⟩))⟩

/-! ## The control invariant -/

/-- A block that has ended its request and holds no words meets the control invariant. -/
theorem State.Done.controlInv {t : State} (h : t.Done) (hlatched : t.latched = []) (hstatus : t.StatusOk) : t.ControlInv := by
  obtain ⟨hheld, hbusy, howned, hpend, hwindow⟩ := h
  exact ⟨hstatus, by simp [State.BusyOk, State.atBoundary, hbusy, hheld, hlatched], by simp [State.OwnedOk, howned, hheld],
    fun _ => ⟨hpend, hwindow⟩, fun hne => absurd hlatched hne, fun _ => hlatched⟩

/-- A block that is held for ever and holds no words meets the control invariant. -/
theorem State.Hung.controlInv {t : State} (h : t.Hung) (hlatched : t.latched = []) (hstatus : t.StatusOk) : t.ControlInv := by
  obtain ⟨hheld, hbusy, howned⟩ := h
  have hsome : t.held.isSome = true := Option.isSome_iff_ne_none.mpr hheld
  exact ⟨hstatus, by simp [State.BusyOk, State.atBoundary, hbusy, hsome], by simp [State.OwnedOk, howned, hsome],
    fun hnone => absurd hnone hheld, fun hne => absurd hlatched hne, fun _ => hlatched⟩

/-- A block that waits for operand words meets the control invariant: what it has latched is the start of a legal request. -/
theorem awaitOperands_controlInv {s : State} (hs : s.ControlInv) (hheld : s.held = none)
    (hd : decode s.waiting = .needOperands) : (awaitOperands s).ControlInv := by
  obtain ⟨-, -, howned, hhidden, -, -⟩ := hs
  have hne : s.waiting.isEmpty = false := by
    cases hws : s.waiting with
    | nil => simp [hws] at hd
    | cons w ws => rfl
  have hbusy : (awaitOperands s).busy = true := busy_setBusy_bits _
  exact ⟨setBits_masked _ _, by simp [State.BusyOk, State.atBoundary, hbusy, hne], howned, hhidden, fun _ => hd,
    fun hn => absurd hheld hn⟩

/-- Settles O14: a step leaves the block as it is, waiting for operand words, at the end of a request, or held inside one. -/
theorem stepKeepsTheControlInvariant : Obligations.StepKeepsTheControlInvariant := by
  intro s t hs h
  have ⟨_, _, howned, _⟩ := hs
  obtain ⟨hheld, rfl | ⟨hd, rfl⟩ | ⟨why, rest, -, rfl⟩ | ⟨i, rest, -, hw, he⟩⟩ := step_request_cases h
  · exact hs
  · exact awaitOperands_controlInv hs hheld hd
  all_goals rw [State.OwnedOk, hheld] at howned
  · have hdone : (takeIllegalRequest (accept rest s)).Done := ⟨hheld, busy_clearBusy_bits _, howned, rfl, rfl⟩
    exact hdone.controlInv rfl (clearBits_masked _ _)
  · obtain ⟨hlatched, -, hstatus⟩ := exec_words hw he
    rcases exec_ends hw he hheld howned with hdone | hhung
    · exact hdone.controlInv hlatched hstatus
    · exact hhung.controlInv hlatched hstatus

/-! ## The boundary behind a request -/

/-- Settles O7: the words decode to the request, and a request that is answered ends. -/
theorem stepEndsAtARequestBoundary : Obligations.StepEndsAtARequestBoundary := by
  rintro s i rest ⟨hbusy, hlatched, hheld⟩ howned hanswers hw hchan
  have hd : decode s.waiting = .ok i rest := by rw [State.waiting, hlatched, hchan]; exact decode_encode rest hw
  have hstep : step s = exec i (accept rest s) := by simp [step, hheld, State.accepting, hbusy, hd]
  have hdone := endRequest_done i (sectionsOf i (accept rest s)) (accept rest s) (u := settledFor i (accept rest s))
    (by simpa using hheld) (by simpa using howned)
  rw [← perform_answered _ _ _ (by simpa [State.TransportAnswers] using hanswers)] at hdone
  have he := exec_eq i (accept rest s) hw
  obtain ⟨hl, hc, -⟩ := exec_words hw he
  exact ⟨_, hstep.trans he, ⟨hdone.busy, hl, hdone.held⟩, hdone.owned, hc, hdone.pendMad, hdone.window⟩

/-! ## The fault bits -/

/-- The end of a request keeps the fault bits (R66). -/
@[simp] theorem endRequest_illegal (s : State) : (endRequest s).illegal = s.illegal := illegal_clearBusy_bits _
@[simp] theorem endRequest_tfault (s : State) : (endRequest s).tfault = s.tfault := tfault_clearBusy_bits _

/-- Only CLEAR_STATUS's commit writes the fault bits, and it clears them (R207). -/
theorem commitOf_faults (i : Instr) (s u : State) :
    (i = .clearStatus ∧ (commitOf i s u).illegal = false ∧ (commitOf i s u).tfault = false)
    ∨ (i ≠ .clearStatus ∧ (commitOf i s u).illegal = u.illegal ∧ (commitOf i s u).tfault = u.tfault) := by
  by_cases hi : i = .clearStatus
  · subst hi
    left
    refine ⟨rfl, (clearBits_bit _ _ 1 (by decide)).trans ?_, (clearBits_bit _ _ 2 (by decide)).trans ?_⟩ <;>
      simp [illegalMask, tfaultMask]
  · right
    exact ⟨hi, by rw [State.illegal, commitOf_status i s u hi, State.illegal],
      by rw [State.tfault, commitOf_status i s u hi, State.tfault]⟩

/-- The request from `s` to `t` ends, under a timeout, at a DRAIN of its own whose answer is silent, those before it `done` (R222). -/
def State.TimesOut (s t : State) : Prop :=
  s.cfg.drainTimeout ≠ none ∧ ∃ pre, t.trace = s.trace ++ pre ++ [.drain, .desel] ∧ s.SilentAt (awaitCount pre)

/-- A transport that answers times no request out (R265). -/
theorem State.TransportAnswers.not_timesOut {s t : State} (h : s.TransportAnswers) : ¬ s.TimesOut t := by
  rintro ⟨-, pre, -, hsilent⟩
  exact hsilent.not_answersFor (Nat.lt_succ_self _) (h.answersFor _)

/-- The awaits before the DRAIN of a section are all its awaits but that one. -/
theorem awaitCount_beforeDrain {c : Critical} (hc : c.Payload) :
    awaitCount (.sel :: c.body ++ (c.settle.map BusEvent.sleep).toList) = c.awaits - 1 := by
  have h := awaitCount_events c hc
  rw [Critical.events, awaitCount_append] at h
  exact Nat.eq_sub_of_add_eq h

/-- A section whose DRAIN is silent under a timeout, behind sections that are answered, times the request out. -/
theorem afterTimeout_timesOut {pre post : List Critical} {c : Critical} (hcs : AllPayload (pre ++ c :: post)) {s : State}
    (htimeout : s.cfg.drainTimeout.isSome) (hsilent : s.SilentAt (awaitsOf pre + (c.awaits - 1))) :
    s.TimesOut (afterTimeout c (afterAll pre { s with pendMad := none })) := by
  have hpre : awaitCount (eventsOf pre) = awaitsOf pre := awaitCount_eventsOf pre fun d hd => hcs d (by simp [hd])
  have hc := awaitCount_beforeDrain (hcs c (by simp))
  refine ⟨Option.isSome_iff_ne_none.mp htimeout,
    eventsOf pre ++ (.sel :: c.body ++ (c.settle.map BusEvent.sleep).toList), ?_, ?_⟩
  · simp [afterTimeout, afterAll_eq, Critical.events]
  · rwa [awaitCount_append, hpre, hc]

/-- What a request does to the fault bits: it clears both (CLEAR_STATUS), keeps both, or sets `TFAULT` at a timeout. -/
theorem perform_faults (i : Instr) {cs : List Critical} (hcs : AllPayload cs) (s u : State) :
    let t := perform cs (commitOf i s) u
    (i = .clearStatus ∧ t.illegal = false ∧ t.tfault = false)
    ∨ (t.illegal = u.illegal ∧ t.tfault = u.tfault) ∨ (t.illegal = u.illegal ∧ t.tfault = true ∧ u.TimesOut t) := by
  rcases perform_cases cs (commitOf i s) u with
    ⟨-, h⟩ | ⟨pre, c, post, rfl, ⟨hsilent, htimeout, h⟩ | ⟨-, -, h⟩ | ⟨ms, -, -, h⟩⟩ <;> rw [h]
  · simp only [endRequest_illegal, endRequest_tfault]
    rcases commitOf_faults i s (afterAll cs { u with pendMad := none }) with hclear | ⟨-, hi, ht⟩
    · exact .inl hclear
    · exact .inr (.inl ⟨by rw [hi, State.illegal, afterAll_status]; rfl, by rw [ht, State.tfault, afterAll_status]; rfl⟩)
  · refine .inr (.inr ⟨?_, (tfault_clearBusy_bits _).trans (tfault_setTfault_bits _),
      afterTimeout_timesOut hcs htimeout hsilent⟩)
    simp only [State.illegal, afterTimeout, illegal_clearBusy_bits, illegal_setTfault_bits, afterAll_status]
  · right; left
    simp only [State.illegal, State.tfault, heldInDrain, illegal_setBusy_bits, tfault_setBusy_bits, afterAll_status, and_self]
  · right; left
    simp only [State.illegal, State.tfault, heldInSleep, illegal_setBusy_bits, tfault_setBusy_bits, afterAll_status, and_self]

/-- What a well-formed request does to the fault bits. -/
theorem exec_faults {i : Instr} {s t : State} (hw : i.WellFormed) (h : exec i s = .next t) :
    (i = .clearStatus ∧ t.illegal = false ∧ t.tfault = false)
    ∨ (t.illegal = s.illegal ∧ t.tfault = s.tfault) ∨ (t.illegal = s.illegal ∧ t.tfault = true ∧ s.TimesOut t) := by
  rw [exec_eq i s hw] at h
  obtain rfl := Host.Outcome.next.inj h
  simpa [State.illegal, State.tfault, State.TimesOut, State.SilentAt] using
    perform_faults i (sectionsOf_payload i s) s (settledFor i s)

/-- What a step does to the fault bits (R220): it keeps both, sets `ILLEGAL` at an illegal head word, clears both by CLEAR_STATUS,
or sets `TFAULT` at a timeout. -/
theorem step_faults {s t : State} (h : step s = .next t) :
    (t.illegal = s.illegal ∧ t.tfault = s.tfault)
    ∨ ((∃ why rest, decode s.waiting = .illegal why rest) ∧ t.illegal = true ∧ t.tfault = s.tfault)
    ∨ ((∃ rest, decode s.waiting = .ok .clearStatus rest) ∧ t.illegal = false ∧ t.tfault = false)
    ∨ (t.illegal = s.illegal ∧ t.tfault = true ∧ s.TimesOut t) := by
  obtain ⟨-, rfl | ⟨-, rfl⟩ | ⟨why, rest, hd, rfl⟩ | ⟨i, rest, hd, hw, he⟩⟩ := step_request_cases h
  · exact .inl ⟨rfl, rfl⟩
  · exact .inl ⟨illegal_setBusy_bits _, tfault_setBusy_bits _⟩
  · exact .inr (.inl ⟨⟨why, rest, hd⟩, (illegal_clearBusy_bits _).trans (illegal_setIllegal_bits _),
      (tfault_clearBusy_bits _).trans ((tfault_setIllegal_bits _).trans (tfault_setBusy_bits _))⟩)
  · have hill : (accept rest s).illegal = s.illegal := illegal_setBusy_bits _
    have htf : (accept rest s).tfault = s.tfault := tfault_setBusy_bits _
    rcases exec_faults hw he with ⟨rfl, hi, ht⟩ | ⟨hi, ht⟩ | ⟨hi, ht, htimes⟩
    · exact .inr (.inr (.inl ⟨⟨rest, hd⟩, hi, ht⟩))
    · exact .inl ⟨hi.trans hill, ht.trans htf⟩
    · exact .inr (.inr (.inr ⟨hi.trans hill, ht, htimes⟩))

/-- Settles O25: each of the four things a step does to the fault bits is what the statement allows. -/
theorem faultBitsAreSticky : Obligations.FaultBitsAreSticky := by
  intro s t h
  rcases step_faults h with ⟨hi, ht⟩ | ⟨hd, hi, ht⟩ | ⟨⟨rest, hd⟩, hi, ht⟩ | ⟨hi, ht, htimes⟩
  · exact ⟨fun _ => ⟨hi.trans, ht.trans⟩, fun h0 h1 => by simp [hi, h0] at h1, fun h0 h1 => by simp [ht, h0] at h1⟩
  · exact ⟨fun _ => ⟨fun _ => hi, ht.trans⟩, fun _ _ => hd, fun h0 h1 => by simp [ht, h0] at h1⟩
  · exact ⟨fun hn => absurd hd (hn rest), fun _ h1 => by simp [hi] at h1, fun _ h1 => by simp [ht] at h1⟩
  · exact ⟨fun _ => ⟨hi.trans, fun _ => ht⟩, fun h0 h1 => by simp [hi, h0] at h1, fun _ _ => htimes⟩

/-! ## Registers -/

/-- The registers of R22 a request may write: every other one is the same in `d'` as in `d`. -/
structure DisplayFrame (i : Instr) (d d' : DisplayState) : Prop where
  variant : (∀ v, i ≠ .init v) →
    d'.variant = d.variant ∧ d'.colOffset = d.colOffset ∧ d'.rowOffset = d.rowOffset ∧ d'.colorSwap = d.colorSwap
  rotation : (∀ v, i ≠ .init v) → (∀ r, i ≠ .setRotation r) →
    d'.rotation = d.rotation ∧ d'.width = d.width ∧ d'.height = d.height
  madctl : (∀ v, i ≠ .init v) → (∀ r, i ≠ .setRotation r) → (∀ tb, i ≠ .runTable tb) → d'.madctl = d.madctl
  cursor : (∀ x y, i ≠ .setCursor x y) → (∀ code, i ≠ .writeChar code) → d'.cursorX = d.cursorX ∧ d'.cursorY = d.cursorY
  textColor : (∀ fg bg, i ≠ .setTextColor fg bg) → d'.textColor = d.textColor ∧ d'.textBg = d.textBg
  textScale : (∀ sc, i ≠ .setTextScale sc) → d'.textScale = d.textScale
  wrap : (∀ f, i ≠ .setTextWrap f) → d'.wrap = d.wrap

/-- Nothing written is within any frame. -/
theorem DisplayFrame.refl (i : Instr) (d : DisplayState) : DisplayFrame i d d :=
  ⟨fun _ => ⟨rfl, rfl, rfl, rfl⟩, fun _ _ => ⟨rfl, rfl, rfl⟩, fun _ _ _ => rfl, fun _ _ => ⟨rfl, rfl⟩, fun _ => ⟨rfl, rfl⟩,
    fun _ => rfl, fun _ => rfl⟩

/-- A commit writes the registers R22 gives its request. -/
theorem commitOf_displayFrame (i : Instr) (s u : State) : DisplayFrame i u.ds (commitOf i s u).ds := by
  cases i
  case init v => exact { DisplayFrame.refl _ _ with
    variant := fun h => absurd rfl (h v), rotation := fun h => absurd rfl (h v), madctl := fun h => absurd rfl (h v) }
  case runTable tb => exact { DisplayFrame.refl _ _ with madctl := fun _ _ h => absurd rfl (h tb) }
  case setRotation r => exact { DisplayFrame.refl _ _ with
    rotation := fun _ h => absurd rfl (h r), madctl := fun _ h => absurd rfl (h r) }
  case writeChar code => exact { DisplayFrame.refl _ _ with cursor := fun _ h => absurd rfl (h code) }
  case setCursor x y => exact { DisplayFrame.refl _ _ with cursor := fun h => absurd rfl (h x y) }
  case setTextColor fg bg => exact { DisplayFrame.refl _ _ with textColor := fun h => absurd rfl (h fg bg) }
  case setTextScale sc => exact { DisplayFrame.refl _ _ with textScale := fun h => absurd rfl (h sc) }
  case setTextWrap f => exact { DisplayFrame.refl _ _ with wrap := fun h => absurd rfl (h f) }
  all_goals exact DisplayFrame.refl _ _

/-- A request writes the registers R22 gives it, if it writes any. -/
theorem exec_displayFrame {i : Instr} {s t : State} (h : exec i s = .next t) : DisplayFrame i s.ds t.ds := by
  rcases exec_ds h with hds | ⟨u, hu, -, hds⟩ <;> rw [hds]
  · exact .refl _ _
  · rw [← hu]
    exact commitOf_displayFrame i s u

/-- Only the four queries write the response (R63). -/
theorem commitOf_resp {i : Instr} (hrot : i ≠ .getRotation) (hw : i ≠ .getWidth) (hh : i ≠ .getHeight)
    (hc : ∀ r g b, i ≠ .color565 r g b) (s u : State) : (commitOf i s u).resp = u.resp := by
  cases i
  case getRotation => exact absurd rfl hrot
  case getWidth => exact absurd rfl hw
  case getHeight => exact absurd rfl hh
  case color565 r g b => exact absurd rfl (hc r g b)
  all_goals rfl

/-- The response after a request is the old one, or the one its commit leaves. -/
theorem perform_resp (cs : List Critical) (commit : State → State) (s : State) :
    (perform cs commit s).resp = s.resp ∨ ∃ u : State, u.resp = s.resp ∧ (perform cs commit s).resp = (commit u).resp := by
  rcases perform_cases cs commit s with
    ⟨-, h⟩ | ⟨pre, c, post, -, ⟨-, -, h⟩ | ⟨-, -, h⟩ | ⟨ms, -, -, h⟩⟩ <;> rw [h]
  · exact .inr ⟨_, afterAll_resp cs { s with pendMad := none }, rfl⟩
  all_goals exact .inl (afterAll_resp _ _)

/-- The response after a request that is no query is the old one. -/
theorem exec_resp {i : Instr} {s t : State} (hrot : i ≠ .getRotation) (hw : i ≠ .getWidth) (hh : i ≠ .getHeight)
    (hc : ∀ r g b, i ≠ .color565 r g b) (h : exec i s = .next t) : t.resp = s.resp := by
  rcases exec_cases h with rfl | ⟨-, rfl⟩
  · rcases perform_resp (sectionsOf i s) (commitOf i s) (settledFor i s) with hr | ⟨u, hu, hr⟩ <;> rw [hr]
    · exact settledFor_resp i s
    · rw [commitOf_resp hrot hw hh hc, hu, settledFor_resp]
  · rfl

/-- The status a host reads is less than 8, whatever the register holds (R23). -/
theorem statusWord_lt (s : State) : s.statusWord.toNat < 8 := by
  rw [State.statusWord, BitVec.toNat_and]
  exact Nat.lt_succ_of_le Nat.and_le_right

/-- A status whose reserved bits are 0 is less than 8 (R23). -/
theorem State.StatusOk.lt {s : State} (h : s.StatusOk) : s.status.toNat < 8 := by
  rw [← h]
  exact statusWord_lt s

/-- Settles O58: the frames of the display registers, the response, the status and the words of a request, put together. -/
theorem requestsWriteOnlyTheirRegisters : Obligations.RequestsWriteOnlyTheirRegisters := by
  intro i s t hw h
  have hframe := exec_displayFrame h
  obtain ⟨hlatched, hchan, hstatus⟩ := exec_words hw h
  obtain ⟨-, hcfg, -, -⟩ := exec_frame h
  refine ⟨fun hinit => ?_, hframe.cursor, hframe.textColor, hframe.textScale, hframe.wrap,
    fun hrot hwd hht hc => exec_resp hrot hwd hht hc h, fun hclear => ?_, hstatus.lt, hchan, hlatched, hcfg⟩
  · obtain ⟨hvariant, hcol, hrow, hswap⟩ := hframe.variant hinit
    refine ⟨hvariant, hcol, hrow, hswap, fun hset => ?_⟩
    obtain ⟨hrotation, hwidth, hheight⟩ := hframe.rotation hinit hset
    exact ⟨hrotation, hwidth, hheight, hframe.madctl hinit hset⟩
  · rcases exec_faults hw h with ⟨hi, -⟩ | ⟨hi, ht⟩ | ⟨hi, -, htimes⟩
    · exact absurd hi hclear
    · exact ⟨hi, fun _ => ht⟩
    · exact ⟨hi, fun hanswers => absurd htimes hanswers.not_timesOut⟩

/-! ## The logical size and the text scale -/

/-- A rotation is odd exactly where its low bit is 1. -/
theorem rotation_getLsbD_zero (r : BitVec 2) : r.getLsbD 0 = decide (r.toNat % 2 = 1) := by revert r; decide

/-- The logical width in numbers (R29). -/
theorem logicalWidth_toNat {cfg : Config} (h : cfg.PanelOk) (r : BitVec 2) :
    (logicalWidth cfg r).toNat = if r.toNat % 2 = 1 then cfg.panelH else cfg.panelW := by
  simp only [logicalWidth, rotation_getLsbD_zero, decide_eq_true_eq, BitVec.toNat_ofNat]
  split <;> omega

/-- The logical height in numbers (R29). -/
theorem logicalHeight_toNat {cfg : Config} (h : cfg.PanelOk) (r : BitVec 2) :
    (logicalHeight cfg r).toNat = if r.toNat % 2 = 1 then cfg.panelW else cfg.panelH := by
  simp only [logicalHeight, rotation_getLsbD_zero, decide_eq_true_eq, BitVec.toNat_ofNat]
  split <;> omega

/-- The logical size invariant in numbers (R29). -/
theorem State.sizeOk_iff {s : State} (h : s.cfg.PanelOk) :
    s.SizeOk ↔
      (s.ds.rotation.toNat % 2 = 1 → s.ds.width.toNat = s.cfg.panelH ∧ s.ds.height.toNat = s.cfg.panelW)
      ∧ (s.ds.rotation.toNat % 2 = 0 → s.ds.width.toNat = s.cfg.panelW ∧ s.ds.height.toNat = s.cfg.panelH) := by
  rw [State.SizeOk, ← BitVec.toNat_inj, ← BitVec.toNat_inj, logicalWidth_toNat h, logicalHeight_toNat h]
  rcases Nat.mod_two_eq_zero_or_one s.ds.rotation.toNat with hr | hr <;> simp [hr]

/-- Settles O15: the numbers of the statement are the invariant that every step keeps. -/
theorem stepKeepsTheLogicalSize : Obligations.StepKeepsTheLogicalSize := by
  refine ⟨fun cfg h => ?_, fun s t h hs hstep => ?_⟩
  · exact (State.sizeOk_iff (s := State.resetWith cfg) h).mp ⟨(logicalWidth_zero cfg).symm, (logicalHeight_zero cfg).symm⟩
  · obtain ⟨-, hcfg⟩ := step_trace_cfg hstep
    exact (State.sizeOk_iff (hcfg ▸ h)).mp (step_sizeOk ((State.sizeOk_iff h).mpr hs) hstep)

/-- A stored scale is not 0 (R188). -/
theorem scaleOf_ne_zero (sc : Byte) : scaleOf sc ≠ 0 := by
  unfold scaleOf
  split
  · decide
  · assumption

/-- A commit leaves the text scale or stores a scale operand (R188). -/
theorem commitOf_textScale (i : Instr) (s u : State) :
    (commitOf i s u).ds.textScale = u.ds.textScale ∨ ∃ sc, (commitOf i s u).ds.textScale = scaleOf sc := by
  cases i
  case setTextScale sc => exact .inr ⟨sc, rfl⟩
  all_goals exact .inl rfl

/-- Settles O16: the only operand a commit stores as text scale has been read as 1 where it is 0. -/
theorem textScaleIsNeverZero : Obligations.TextScaleIsNeverZero := by
  refine ⟨fun _ => rfl, fun s t h => ?_, fun s t hs h => ?_⟩
  · rw [exec_eq _ _ rfl] at h
    exact (congrArg (fun t : State => t.ds.textScale) (Host.Outcome.next.inj h)).symm
  · rcases step_ds h with hds | ⟨i, s', u, hu, -, hds⟩ <;> rw [hds]
    · exact hs
    · rcases commitOf_textScale i s' u with hsc | ⟨sc, hsc⟩ <;> rw [hsc]
      · rwa [hu]
      · exact scaleOf_ne_zero sc

/-! ## Idle and held blocks -/

/-- Settles O9: no word waits to be decoded, or the step is the fault of the event the block is held at. -/
theorem idleStaysAndHeldIsStuck : Obligations.IdleStaysAndHeldIsStuck := by
  intro s
  refine ⟨fun hheld hlatched hchan => ?_, fun hheld => by simp [step, hheld], fun hheld => by simp [step, hheld]⟩
  simp [step, hheld, State.waiting, hlatched, hchan]

/-! ## What the host reads -/

/-- A status as the host reads it: the three flags, and reserved bits of 0 (R23). -/
def IsHostStatus (w : Word) (busy illegal tfault : Bool) : Prop :=
  w.toNat < 8 ∧ w.getLsbD 0 = busy ∧ w.getLsbD 1 = illegal ∧ w.getLsbD 2 = tfault

/-- The status a host reads between two steps. -/
theorem statusWord_isHostStatus (s : State) : IsHostStatus s.statusWord s.busy s.illegal s.tfault := by
  have hbit : ∀ k < 3, s.statusWord.getLsbD k = s.status.getLsbD k := fun k hk => by
    rw [State.statusWord, BitVec.getLsbD_and, statusMask_bit k hk, Bool.and_true]
  exact ⟨statusWord_lt s, hbit 0 (by decide), hbit 1 (by decide), hbit 2 (by decide)⟩

/-- The status a host reads inside a request: `BUSY` is 1, the fault bits are the state's. -/
theorem setBusy_isHostStatus (s : State) : IsHostStatus s.setBusy.statusWord true s.illegal s.tfault := by
  obtain ⟨hbusy, hillegal, htfault, hlt⟩ := setBusy_statusWord s
  exact ⟨hlt, hbusy, hillegal, htfault⟩

/-- What a host finds at a moment inside the request that the next step performs: the registers before it while its events are
sent, those it leaves at its ending, with `BUSY = 1`; there is no such moment past its last event, and no ending that it does not
come to. -/
theorem registersDuring_of_requestStep {s t : State} (h : requestStep s = some t) :
    (∀ k, registersDuring (.sent k) s = if s.trace.length + k ≤ t.trace.length then some s.setBusy.hostRegisters else none)
    ∧ registersDuring .ending s = if t.busy then none else some t.setBusy.hostRegisters := by
  simp [registersDuring, h]

/-- Settles O26: the status masked to its three flags, and the registers at each moment of a request. -/
theorem hostReadsStatusAndResponse : Obligations.HostReadsStatusAndResponse := by
  intro s
  refine ⟨statusWord_isHostStatus s, rfl, fun t ha hstep hd => ?_⟩
  obtain ⟨hsent, hending⟩ := registersDuring_of_requestStep (requestStep_some.mpr ⟨ha, hstep, hd⟩)
  refine ⟨fun k hk => ⟨⟨_, ?_, setBusy_isHostStatus s⟩, fun n => ?_⟩, fun k hk => ?_,
    fun hb => ⟨⟨_, ?_, setBusy_isHostStatus t⟩, fun n => ?_⟩, fun hb => ?_⟩
  · rw [hostReadStatusDuring, hsent, if_pos hk]; rfl
  · rw [hostReadRespDuring, hsent, if_pos hk]; exact congrArg some (ite_self _)
  · rw [hostReadStatusDuring, hsent, if_neg (by omega)]; rfl
  · rw [hostReadStatusDuring, hending, if_neg (by simp [hb])]; rfl
  · rw [hostReadRespDuring, hending, if_neg (by simp [hb])]
    refine ⟨_, rfl, ?_⟩
    split
    · exact .inr rfl
    · exact .inl rfl
  · rw [hostReadStatusDuring, hending, if_pos hb]; rfl

end Sys2Proof.Machine
end

section
/-!
PROOFS. What the sections of a request send to the controller's access-control register; then the statement that `S.madctl` is the
value it was sent last.
-/

namespace Sys2Proof.Machine

/-! ## The sections of a drawing request -/

/-- A critical section of a drawing request: a window burst (R100), or the fast path's glyph cell (R182). -/
inductive Critical.DrawnBy (s : State) : Critical → Prop where
  | burst (w : Window) (words : List Word) : DrawnBy s (windowBurst s w words)
  | glyph (x y : Int) (fg bg : Word) (cols : List Byte) : DrawnBy s (glyphFast s x y fg bg cols)

/-- Every section of the list is one of a drawing request. -/
def AllDrawn (s : State) (cs : List Critical) : Prop := ∀ c ∈ cs, c.DrawnBy s

section
variable (s : State)

@[simp] theorem allDrawn_nil : AllDrawn s [] := by simp [AllDrawn]

@[simp] theorem allDrawn_burst (w : Window) (words : List Word) : AllDrawn s [windowBurst s w words] := by
  simpa [AllDrawn] using Critical.DrawnBy.burst w words

@[simp] theorem allDrawn_glyph (x y : Int) (fg bg : Word) (cols : List Byte) : AllDrawn s [glyphFast s x y fg bg cols] := by
  simpa [AllDrawn] using Critical.DrawnBy.glyph x y fg bg cols

@[simp] theorem allDrawn_append (as bs : List Critical) : AllDrawn s (as ++ bs) ↔ AllDrawn s as ∧ AllDrawn s bs :=
  List.forall_mem_append

@[simp] theorem allDrawn_flatMap {α : Type} (l : List α) (f : α → List Critical) :
    AllDrawn s (l.flatMap f) ↔ ∀ a ∈ l, AllDrawn s (f a) :=
  List.forall_mem_flatMap

@[simp] theorem allDrawn_ite (p : Prop) [Decidable p] (as bs : List Critical) :
    AllDrawn s (if p then as else bs) ↔ (p → AllDrawn s as) ∧ (¬p → AllDrawn s bs) := by
  split <;> simp_all

@[simp] theorem solid_drawn (x y w h : Int) (c : Word) : AllDrawn s (solid s x y w h c) := by
  unfold solid
  split <;> simp

@[simp] theorem pixel_drawn (x y : Int) (c : Word) : AllDrawn s (pixel s x y c) := by simp [pixel]
@[simp] theorem hline_drawn (x y w : Int) (c : Word) : AllDrawn s (hline s x y w c) := solid_drawn _ _ _ _ _ _
@[simp] theorem vline_drawn (x y h : Int) (c : Word) : AllDrawn s (vline s x y h c) := solid_drawn _ _ _ _ _ _
@[simp] theorem fillRect_drawn (x y w h : Int) (c : Word) : AllDrawn s (fillRect s x y w h c) := solid_drawn _ _ _ _ _ _
@[simp] theorem rect_drawn (x y w h : Int) (c : Word) : AllDrawn s (rect s x y w h c) := by simp [rect]

@[simp] theorem lineRun_drawn (steep : Bool) (e : Int) (r : Run) (w : Word) : AllDrawn s (lineRun s steep e r w) := by
  simp [lineRun]

@[simp] theorem line_drawn (x0 y0 x1 y1 : Int) (c : Word) : AllDrawn s (line s x0 y0 x1 y1 c) := by simp [line]

@[simp] theorem circle_drawn (x0 y0 r : Int) (c : Word) : AllDrawn s (circle s x0 y0 r c) := by simp [circle, circleStep]

@[simp] theorem circleHelper_drawn (x0 y0 r : Int) (m : BitVec 4) (c : Word) : AllDrawn s (circleHelper s x0 y0 r m c) := by
  simp [circleHelper, circleHelperStep, drawIf]

@[simp] theorem fillCircleHelper_drawn (x0 y0 r : Int) (m : BitVec 2) (e : Int) (c : Word) :
    AllDrawn s (fillCircleHelper s x0 y0 r m e c) := by
  simp [fillCircleHelper, fillHelperStep, drawIf]

@[simp] theorem fillCircle_drawn (x0 y0 r : Int) (c : Word) : AllDrawn s (fillCircle s x0 y0 r c) := by simp [fillCircle]

@[simp] theorem roundRect_drawn (x y w h r : Int) (c : Word) : AllDrawn s (roundRect s x y w h r c) := by simp [roundRect]

@[simp] theorem fillRoundRect_drawn (x y w h r : Int) (c : Word) : AllDrawn s (fillRoundRect s x y w h r c) := by
  simp [fillRoundRect]

@[simp] theorem triangle_drawn (x0 y0 x1 y1 x2 y2 : Int) (c : Word) : AllDrawn s (triangle s x0 y0 x1 y1 x2 y2 c) := by
  simp [triangle]

@[simp] theorem scanSpan_drawn (a b y : Int) (c : Word) : AllDrawn s (scanSpan s a b y c) := by simp [scanSpan]

@[simp] theorem scanEdges_drawn (c : Word) (xa dxa dya xb dxb dyb : Int) (n : Nat) (y sa sb : Int) :
    AllDrawn s (scanEdges s c xa dxa dya xb dxb dyb n y sa sb) := by
  induction n generalizing y sa sb with
  | zero => exact allDrawn_nil s
  | succ n ih => simp [scanEdges, ih]

@[simp] theorem fillTriangle_drawn (x0 y0 x1 y1 x2 y2 : Int) (c : Word) :
    AllDrawn s (fillTriangle s x0 y0 x1 y1 x2 y2 c) := by
  simp [fillTriangle, fillSorted]

@[simp] theorem bitmapBlit_drawn (x y w h : Int) (c : Word) (a : Nat) : AllDrawn s (bitmapBlit s x y w h c a) := by
  simp [bitmapBlit]

@[simp] theorem dot_drawn (x y : Int) (i j : Nat) (sc : Byte) (c : Word) : AllDrawn s (dot s x y i j sc c) := by simp [dot]

@[simp] theorem drawChar_drawn (x y : Int) (fg bg : Word) (sraw code : Byte) (g : Bool) :
    AllDrawn s (drawChar s x y fg bg sraw code g) := by
  simp [drawChar, glyphGeneral]

@[simp] theorem textSections_drawn (code : Byte) : AllDrawn s (textSections s code) := by
  unfold textSections
  split <;> simp

end

/-! ## The access-control value of a trace -/

/-- The value a trace leaves is read from its second part, started with what the first part leaves (R30). -/
theorem lastMadctl_append (cfg : Config) (as : List BusEvent) (last : Byte) (fresh : Bool) :
    ∃ fresh', ∀ bs, lastMadctl cfg last fresh (as ++ bs) = lastMadctl cfg (lastMadctl cfg last fresh as) fresh' bs := by
  induction as generalizing last fresh with
  | nil => exact ⟨fresh, fun _ => rfl⟩
  | cons ev as ih =>
    cases ev
    case d8 b => cases fresh <;> exact ih _ _
    all_goals exact ih _ _

/-- A trace without D8 events sends no access-control value. -/
theorem lastMadctl_of_no_d8 (cfg : Config) {evs : List BusEvent} (h : ∀ b, .d8 b ∉ evs) (last : Byte) (fresh : Bool) :
    lastMadctl cfg last fresh evs = last := by
  induction evs generalizing fresh with
  | nil => rfl
  | cons ev evs ih =>
    have hevs : ∀ b, .d8 b ∉ evs := fun b hb => h b (List.mem_cons_of_mem _ hb)
    cases ev
    case d8 b => exact absurd List.mem_cons_self (h b)
    all_goals exact ih hevs _

/-- The argument bytes behind the first one of a command send no access-control value (R30). -/
theorem lastMadctl_stale_d8 (cfg : Config) (args : List Byte) (last : Byte) (evs : List BusEvent) :
    lastMadctl cfg last false (args.map .d8 ++ evs) = lastMadctl cfg last false evs := by
  induction args with
  | nil => rfl
  | cons a args ih => exact ih

/-- A command step sends the access-control value it snoops (R84). -/
theorem lastMadctl_commandStep (cfg : Config) (op : Byte) (args : List Byte) (d : Option Word) (last : Byte) (fresh : Bool) :
    lastMadctl cfg last fresh (commandStep cfg op args d).events = (commandStep cfg op args d).snoop.getD last := by
  generalize htail : ((d.map delayMs).map BusEvent.sleep).toList ++ ([.drain, .desel] : List BusEvent) = tail
  have hd8 : ∀ b, .d8 b ∉ tail := by cases d <;> simp [← htail]
  have hevents : (commandStep cfg op args d).events = .sel :: .cmd op :: (args.map .d8 ++ tail) := by
    simp [Critical.events, commandStep, ← htail]
  rw [hevents]
  simp only [lastMadctl, commandStep]
  cases args with
  | nil => simpa using lastMadctl_of_no_d8 cfg hd8 last _
  | cons a args =>
    by_cases hop : op = cfg.opMadctl <;> simp [hop, lastMadctl, lastMadctl_stale_d8, lastMadctl_of_no_d8 cfg hd8]

/-- Command steps one after another send the access-control value they leave pending (R84). -/
theorem lastMadctl_commandSteps (cfg : Config) (steps : List CmdStep) (p : Option Byte) (last : Byte) (fresh : Bool) :
    lastMadctl cfg (p.getD last) fresh (eventsOf (steps.map fun st => commandStep cfg st.opcode st.args st.delay))
      = (lastSnoop p (steps.map fun st => commandStep cfg st.opcode st.args st.delay)).getD last := by
  induction steps generalizing p fresh with
  | nil => rfl
  | cons st steps ih =>
    obtain ⟨fresh', happend⟩ :=
      lastMadctl_append cfg (commandStep cfg st.opcode st.args st.delay).events (p.getD last) fresh
    have hsnoop : (commandStep cfg st.opcode st.args st.delay).snoop.getD (p.getD last)
        = ((commandStep cfg st.opcode st.args st.delay).snoop <|> p).getD last := by
      cases (commandStep cfg st.opcode st.args st.delay).snoop <;> rfl
    rw [List.map_cons, eventsOf_cons, happend, lastMadctl_commandStep, hsnoop, ih]
    rfl

/-- The access-control value sent at the end of a section is the last one, whatever came before. -/
theorem lastMadctl_append_madctl (cfg : Config) (as : List BusEvent) (m last : Byte) (fresh : Bool) :
    lastMadctl cfg last fresh (as ++ ([.cmd cfg.opMadctl, .d8 m, .drain, .desel] : List BusEvent)) = m := by
  obtain ⟨fresh', happend⟩ := lastMadctl_append cfg as last fresh
  rw [happend]
  simp [lastMadctl]

/-- A drawing section leaves the access-control value at `S.madctl`: a burst sends none, the fast path sends it last (R182). -/
theorem Critical.DrawnBy.keepsMadctl {s : State} {c : Critical} (h : c.DrawnBy s) (fresh : Bool) :
    lastMadctl s.cfg s.ds.madctl fresh c.events = s.ds.madctl := by
  cases h with
  | burst w words => exact lastMadctl_of_no_d8 _ (by simp [Critical.events, windowBurst, setWindow]) _ _
  | glyph x y fg bg cols =>
    have hlast := lastMadctl_append_madctl s.cfg
      (([.sel, .cmd s.cfg.opMadctl, .d8 (s.ds.madctl ^^^ s.cfg.glyphToggle)] : List BusEvent)
        ++ setWindow s.cfg (sentRow s y) (sentRow s (y + 7)) (sentCol s x) (sentCol s (x + 5))
        ++ (fastWords s fg bg cols).map BusEvent.d16) s.ds.madctl s.ds.madctl fresh
    simpa [Critical.events, glyphFast] using hlast

/-- Drawing sections one after another leave the access-control value at `S.madctl`. -/
theorem lastMadctl_drawn {s : State} {cs : List Critical} (h : AllDrawn s cs) (fresh : Bool) :
    lastMadctl s.cfg s.ds.madctl fresh (eventsOf cs) = s.ds.madctl := by
  induction cs generalizing fresh with
  | nil => rfl
  | cons c cs ih =>
    obtain ⟨fresh', happend⟩ := lastMadctl_append s.cfg c.events s.ds.madctl fresh
    rw [eventsOf_cons, happend, (h c (by simp)).keepsMadctl, ih fun d hd => h d (by simp [hd])]

/-! ## The access-control value of a request -/

/-- A request sends last the access-control value that its commit leaves in `S.madctl`, with the value its sections leave pending. -/
theorem lastMadctl_sectionsOf (i : Instr) {s u : State} (hds : u.ds = s.ds)
    (hpend : u.pendMad = lastSnoop none (sectionsOf i s)) (fresh : Bool) :
    lastMadctl s.cfg s.ds.madctl fresh (eventsOf (sectionsOf i s)) = (commitOf i s u).ds.madctl := by
  have hdrawn : AllDrawn s (sectionsOf i s) → (commitOf i s u).ds.madctl = u.ds.madctl →
      lastMadctl s.cfg s.ds.madctl fresh (eventsOf (sectionsOf i s)) = (commitOf i s u).ds.madctl := fun hall hcommit => by
    rw [lastMadctl_drawn hall, hcommit, hds]
  have hsteps : ∀ steps : List CmdStep,
      sectionsOf i s = (steps.map fun st => commandStep s.cfg st.opcode st.args st.delay) →
      (commitOf i s u).ds.madctl = u.pendMad.getD u.ds.madctl →
      lastMadctl s.cfg s.ds.madctl fresh (eventsOf (sectionsOf i s)) = (commitOf i s u).ds.madctl := fun steps hmap hcommit => by
    rw [hcommit, hpend, hds, hmap]
    exact lastMadctl_commandSteps s.cfg steps none s.ds.madctl fresh
  cases i
  case init v => exact hsteps _ (initSteps_eq s.cfg v) rfl
  case runTable t =>
    by_cases ht : t.toNat < 5
    · exact hsteps _ (dif_pos ht) rfl
    · exact hsteps [] (dif_neg ht) rfl
  case setRotation r =>
    have hsent := lastMadctl_commandStep s.cfg s.cfg.opMadctl [rotMadctl s.cfg s.ds.variant (rotationOperand r)] none
      s.ds.madctl fresh
    simpa [sectionsOf, commitOf, commandStep] using hsent
  case invert f =>
    have hsent := lastMadctl_commandStep s.cfg (if f then s.cfg.opInvon else s.cfg.opInvoff) [] none s.ds.madctl fresh
    simpa [sectionsOf, commitOf, commandStep, hds] using hsent
  all_goals exact hdrawn (by simp [sectionsOf]) rfl

/-- A request that is answered leaves the access-control value in step, the transport answering and the block free. -/
theorem exec_madctlCoherent {i : Instr} {s t : State} (hw : i.WellFormed) (hanswers : s.TransportAnswers) (hheld : s.held = none)
    (hs : s.MadctlCoherent) (h : exec i s = .next t) : t.MadctlCoherent ∧ t.TransportAnswers ∧ t.held = none := by
  rw [exec_eq i s hw, perform_answered _ _ _ (by simpa [State.TransportAnswers] using hanswers)] at h
  obtain rfl := Host.Outcome.next.inj h
  generalize hu : afterAll (sectionsOf i s) { settledFor i s with pendMad := none } = u
  rw [afterAll_eq] at hu
  have htrace : u.trace = s.trace ++ eventsOf (sectionsOf i s) := by simp [← hu]
  have hcfg : u.cfg = s.cfg := by simp [← hu]
  have htransport : u.transport = s.transport.drop (awaitsOf (sectionsOf i s)) := by simp [← hu]
  have huheld : u.held = none := by simp [← hu, hheld]
  obtain ⟨fresh, happend⟩ := lastMadctl_append s.cfg s.trace 0x00 false
  have hsent := lastMadctl_sectionsOf i (s := s) (u := u) (by simp [← hu]) (by simp [← hu]) fresh
  rw [commitOf_frame]
  refine ⟨?_, fun a (ha : a ∈ u.transport) => ?_, huheld⟩
  · change (commitOf i s u).ds.madctl = lastMadctl u.cfg 0x00 false u.trace
    rw [hcfg, htrace, happend, ← hs, hsent]
  · rw [htransport] at ha
    exact hanswers a (List.mem_of_mem_drop ha)

/-- Settles O20: the only step that sends an access-control value or writes `S.madctl` is a request. -/
theorem stepKeepsMadctlCoherent : Obligations.StepKeepsMadctlCoherent := by
  intro s t hanswers hheld hs h
  obtain ⟨-, rfl | ⟨-, rfl⟩ | ⟨why, rest, -, rfl⟩ | ⟨i, rest, -, hw, he⟩⟩ := step_request_cases h
  · exact ⟨hs, hanswers, hheld⟩
  · exact ⟨hs, hanswers, hheld⟩
  · exact ⟨hs, hanswers, hheld⟩
  · exact exec_madctlCoherent (s := accept rest s) hw hanswers hheld hs he

end Sys2Proof.Machine
end

section
/-!
PROOFS. What the critical sections of a request put on the bus, event by event; then the statement that every step keeps the bus
protocol.
-/

namespace Sys2Proof.Machine

/-! ## The bodies of critical sections -/

/-- The body of the section is a command, then commands and data (R80, R100, R182). -/
structure Critical.BodyOk (c : Critical) : Prop where
  opens : ∃ b rest, c.body = .cmd b :: rest
  payload : c.Payload

/-- The sections of a request are those of a drawing request, or command steps. -/
theorem sectionsOf_cases (i : Instr) (s : State) :
    AllDrawn s (sectionsOf i s)
    ∨ ∃ steps : List CmdStep, sectionsOf i s = steps.map fun st => commandStep s.cfg st.opcode st.args st.delay := by
  cases i
  case init v => exact .inr ⟨_, initSteps_eq s.cfg v⟩
  case runTable t =>
    by_cases ht : t.toNat < 5
    · exact .inr ⟨_, dif_pos ht⟩
    · exact .inr ⟨[], dif_neg ht⟩
  case setRotation r => exact .inr ⟨[⟨s.cfg.opMadctl, [rotMadctl s.cfg s.ds.variant (rotationOperand r)], none⟩], rfl⟩
  case invert f => exact .inr ⟨[⟨if f then s.cfg.opInvon else s.cfg.opInvoff, [], none⟩], rfl⟩
  all_goals exact .inl (by simp [sectionsOf])

/-- A drawing section begins with a command: the burst's column range, or the fast path's access-control value. -/
theorem Critical.DrawnBy.opens {s : State} {c : Critical} (h : c.DrawnBy s) : ∃ b rest, c.body = .cmd b :: rest := by
  cases h with
  | burst w words => exact ⟨_, _, rfl⟩
  | glyph x y fg bg cols => exact ⟨_, _, rfl⟩

/-- Every section of a request has a body of commands and data that begins with a command. -/
theorem sectionsOf_bodyOk (i : Instr) (s : State) : ∀ c ∈ sectionsOf i s, c.BodyOk := by
  intro c hc
  refine ⟨?_, sectionsOf_payload i s c hc⟩
  rcases sectionsOf_cases i s with hdrawn | ⟨steps, hsteps⟩
  · exact (hdrawn c hc).opens
  · rw [hsteps] at hc
    obtain ⟨st, -, rfl⟩ := List.mem_map.mp hc
    exact ⟨_, _, rfl⟩

/-! ## The phases of a trace -/

/-- A trace in two parts: the second goes on where the first ends. -/
theorem BusPhase.run_append (p : BusPhase) (as bs : List BusEvent) :
    BusPhase.run p (as ++ bs) = (BusPhase.run p as).bind fun q => BusPhase.run q bs := by
  induction as generalizing p with
  | nil => rfl
  | cons ev as ih => cases hq : p.next ev <;> simp [BusPhase.run, hq, ih]

/-- Commands and data keep a trace inside its section. -/
theorem BusPhase.run_payload {evs : List BusEvent} (h : ∀ ev ∈ evs, ev.isPayload = true) :
    BusPhase.run .inside evs = some .inside := by
  induction evs with
  | nil => rfl
  | cons ev evs ih =>
    obtain ⟨hev, hevs⟩ := List.forall_mem_cons.mp h
    have hnext : BusPhase.next .inside ev = some .inside := by
      cases ev
      case cmd b => rfl
      case d8 b => rfl
      case d16 w => rfl
      all_goals cases hev
    rw [BusPhase.run, hnext]
    exact ih hevs

/-- `SEL` and the body bring a trace inside a section. -/
theorem Critical.BodyOk.run_body {c : Critical} (h : c.BodyOk) : BusPhase.run .idle (.sel :: c.body) = some .inside := by
  obtain ⟨⟨b, rest, hbody⟩, hpayload⟩ := h
  rw [hbody]
  exact BusPhase.run_payload fun ev hev => hpayload ev (by simp [hbody, hev])

/-- A section up to its `SLEEP` (R80). -/
theorem Critical.BodyOk.run_sleep {c : Critical} (h : c.BodyOk) (ms : Word) :
    BusPhase.run .idle (.sel :: c.body ++ [.sleep ms]) = some .slept := by
  rw [BusPhase.run_append, h.run_body]
  rfl

/-- A section up to its `DRAIN`, with or without a `SLEEP` before it. -/
theorem Critical.BodyOk.run_drain {c : Critical} (h : c.BodyOk) :
    BusPhase.run .idle (.sel :: c.body ++ (c.settle.map BusEvent.sleep).toList ++ [.drain]) = some .drained := by
  rw [List.append_assoc, BusPhase.run_append, h.run_body]
  cases c.settle <;> rfl

/-- A whole section leads from the idle bus to the idle bus (R72). -/
theorem Critical.BodyOk.run_events {c : Critical} (h : c.BodyOk) : BusPhase.run .idle c.events = some .idle := by
  have hsplit : c.events = .sel :: c.body ++ (c.settle.map BusEvent.sleep).toList ++ [.drain] ++ [.desel] := by
    simp [Critical.events]
  rw [hsplit, BusPhase.run_append, h.run_drain]
  rfl

/-- Whole sections one after another lead from the idle bus to the idle bus. -/
theorem run_eventsOf {cs : List Critical} (h : ∀ c ∈ cs, c.BodyOk) : BusPhase.run .idle (eventsOf cs) = some .idle := by
  induction cs with
  | nil => rfl
  | cons c cs ih =>
    obtain ⟨hc, hcs⟩ := List.forall_mem_cons.mp h
    rw [eventsOf_cons, BusPhase.run_append, hc.run_events]
    exact ih hcs

/-! ## The protocol of a request and of a step -/

/-- Behind whole sections that start on an idle bus, further events lead where they lead from the idle bus. -/
theorem run_afterAll_append {cs : List Critical} (hcs : ∀ c ∈ cs, c.BodyOk) {u : State}
    (hu : BusPhase.run .idle u.trace = some .idle) (evs : List BusEvent) :
    BusPhase.run .idle ((afterAll cs u).trace ++ evs) = BusPhase.run .idle evs := by
  simp only [afterAll_eq, BusPhase.run_append, hu, run_eventsOf hcs, Option.bind_some]

/-- A request of a block that is not held keeps the protocol, whatever the transport answers: it ends behind a whole section, a
section that times out being whole too (R222), or it is held at a `DRAIN` or a `SLEEP` of its own (R223). -/
theorem perform_traceOk (i : Instr) {cs : List Critical} (hcs : ∀ c ∈ cs, c.BodyOk) (s : State) {u : State}
    (hheld : u.held = none) (hu : u.TraceOk) : (perform cs (commitOf i s) u).TraceOk := by
  have hidle : BusPhase.run .idle { u with pendMad := none }.trace = some .idle := by
    simpa [State.TraceOk, State.phase, hheld] using hu
  have hend : ∀ pre : List Critical, (afterAll pre { u with pendMad := none }).held = none := by simp [afterAll_eq, hheld]
  rcases perform_cases cs (commitOf i s) u with
    ⟨-, h⟩ | ⟨pre, c, post, rfl, ⟨-, -, h⟩ | ⟨-, -, h⟩ | ⟨ms, -, -, h⟩⟩ <;> rw [h]
  · have hrun := run_afterAll_append hcs hidle []
    rw [List.append_nil] at hrun
    rw [commitOf_frame]
    simp only [State.TraceOk, State.phase, endRequest, State.clearBusy, hend]
    exact hrun
  all_goals
    obtain ⟨hpre, hc, -⟩ : (∀ d ∈ pre, d.BodyOk) ∧ c.BodyOk ∧ ∀ d ∈ post, d.BodyOk := by
      rwa [List.forall_mem_append, List.forall_mem_cons] at hcs
  · simpa only [State.TraceOk, State.phase, afterTimeout, hend] using (run_afterAll_append hpre hidle _).trans hc.run_events
  · exact (run_afterAll_append hpre hidle _).trans hc.run_drain
  · exact (run_afterAll_append hpre hidle _).trans (hc.run_sleep ms)

/-- Settles O18: the only step that sends events is a request, and a request sends sections. -/
theorem stepKeepsTheBusProtocol : Obligations.StepKeepsTheBusProtocol := by
  intro s t hs h
  obtain ⟨hheld, rfl | ⟨-, rfl⟩ | ⟨why, rest, -, rfl⟩ | ⟨i, rest, -, hw, he⟩⟩ := step_request_cases h
  · exact hs
  · exact hs
  · exact hs
  · rw [exec_eq i _ hw] at he
    obtain rfl := Host.Outcome.next.inj he
    exact perform_traceOk i (sectionsOf_bodyOk i _) _ (by simpa using hheld) (by simpa [State.TraceOk, State.phase] using hs)

end Sys2Proof.Machine
end

section
/-!
PROOFS. The events of BITMAP, and the statement about the bytes that another agent changes while it runs.
-/

namespace Sys2Proof.Machine

/-- The events of BITMAP (R163): a PIXEL for every set bit; a non-positive extent has no row or no column. -/
theorem bitmapBlit_events (s : State) (x y w h : Int) (c : Word) (addr : Nat) :
    eventsOf (bitmapBlit s x y w h c addr)
      = (List.range h.toNat).flatMap fun (j : Nat) => (List.range w.toNat).flatMap fun (i : Nat) =>
          if bitmapPixel s addr w.toNat j i = true then pixelEvents s (x + (i : Int)) (y + (j : Int)) (plainWord s c)
          else [] := by
  unfold bitmapBlit
  split
  · rename_i hempty
    rcases hempty with hw | hh
    · simp [Int.toNat_of_nonpos hw]
    · simp [Int.toNat_of_nonpos hh]
  · simp only [eventsOf_flatMap, apply_ite eventsOf, pixel_events, eventsOf_nil]

/-- A BITMAP whose awaits are all answered: the other agent's changes land, and the set bits are drawn. -/
theorem exec_bitmap {s : State} (h : s.TransportAnswers) (x y w hh c : Word) (addr : BitVec 32) :
    exec (.bitmap x y w hh c addr) s
      = .next ((settleRace (bitmapReads (s16 w) (s16 hh)) s).afterBus
          (eventsOf (bitmapBlit s (s16 x) (s16 y) (s16 w) (s16 hh) c addr.toNat))) :=
  congrArg Host.Outcome.next (performBus_answered _ (settleRace _ s) (bitmapBlit_payload _ _ _ _ _ _ _) h)

/-- The new byte another agent writes is one of the changes listed for that address modulo `2^BMP_AW` (R41, R50). -/
theorem raceByte_eq_some {s : State} {a : Nat} {b : Byte} (h : raceByte s a = some b) :
    ∃ k ∈ s.bitmapRace, bitmapAddr s k.1 = bitmapAddr s a ∧ k.2 = b := by
  obtain ⟨k, hfind, hb⟩ := Option.map_eq_some_iff.mp h
  exact ⟨k, List.mem_of_find?_eq_some hfind, by simpa using List.find?_some hfind, hb⟩

/-- A racing read gives the byte as it is or a new byte listed for its address, whatever the free value is (U4). -/
theorem memReadRacing_old_or_new (s : State) (n a : Nat) :
    memReadRacing s n a = memRead s a
    ∨ ∃ k ∈ s.bitmapRace, bitmapAddr s k.1 = bitmapAddr s a ∧ memReadRacing s n a = k.2 := by
  unfold memReadRacing
  cases hrace : raceByte s a with
  | none => exact .inl rfl
  | some b =>
    obtain ⟨k, hk, haddr, hb⟩ := raceByte_eq_some hrace
    cases Config.raceTakesNew (s.raceReads + n)
    · exact .inl rfl
    · exact .inr ⟨k, hk, haddr, hb.symm⟩

/-- Settles O49: the bytes are those BITMAP reads, one a pixel. -/
theorem racingBytesReadOldOrNew : Obligations.RacingBytesReadOldOrNew := by
  intro s x y w h c addr hanswers
  refine ⟨fun j i => memReadRacing s (j * w.toInt.toNat + i) (addr.toNat + j * bitmapStride w.toInt.toNat + i / 8), _,
    exec_bitmap hanswers x y w h c addr, fun j i => memReadRacing_old_or_new s _ _, ?_⟩
  exact congrArg (s.trace ++ ·) (bitmapBlit_events s _ _ _ _ c addr.toNat)

end Sys2Proof.Machine
end

section
/-!
PROOFS. The runs of a line: that they spell out its points, and that none of them goes beyond its end.
-/

namespace Sys2Proof.Machine

/-! ## Integer ranges -/

theorem intRange_of_lt {a b : Int} (h : b < a) : intRange a b = [] := by
  simp only [intRange, spanLen, List.map_eq_nil_iff, List.range_eq_nil]
  omega

/-- The integers from `a` on: `a`, then those from `a + 1` on. -/
theorem map_range_succ_add (a : Int) (n : Nat) :
    ((List.range (n + 1)).map fun k : Nat => a + (k : Int)) = a :: (List.range n).map fun k : Nat => a + 1 + (k : Int) := by
  simp [List.range_succ_eq_map, Function.comp_def, Int.add_assoc, Int.add_comm 1]

theorem intRange_cons {a b : Int} (h : a ≤ b) : intRange a b = a :: intRange (a + 1) b := by
  have hlen : spanLen a b = spanLen (a + 1) b + 1 := by unfold spanLen; omega
  rw [intRange, hlen, map_range_succ_add]
  rfl

/-- Induction over the ranges that end at `b`: the empty ones, then each with one more element in front. -/
theorem intRange_induction {b : Int} {P : Int → Prop} (empty : ∀ a, b < a → P a)
    (cons : ∀ a, a ≤ b → P (a + 1) → P a) (a : Int) : P a := by
  induction hn : spanLen a b generalizing a with
  | zero => exact empty a (by unfold spanLen at hn; omega)
  | succ n ih =>
    unfold spanLen at hn ih
    exact cons a (by omega) (ih (a + 1) (by omega))

theorem mem_intRange {a b u : Int} : u ∈ intRange a b ↔ a ≤ u ∧ u ≤ b := by
  induction a using intRange_induction (b := b) with
  | empty a h => simp only [intRange_of_lt h, List.not_mem_nil, false_iff]; omega
  | cons a h ih => simp only [intRange_cons h, List.mem_cons, ih]; omega

theorem isChain_intRange (a b : Int) : (intRange a b).IsChain fun u v => v = u + 1 := by
  induction a using intRange_induction (b := b) with
  | empty a h => rw [intRange_of_lt h]; exact .nil
  | cons a h ih =>
    rw [intRange_cons h]
    refine List.isChain_cons.mpr ⟨fun v hv => ?_, ih⟩
    by_cases hb : a + 1 ≤ b
    · simpa [intRange_cons hb, eq_comm] using hv
    · simp [intRange_of_lt (not_le.mp hb)] at hv

/-! ## Runs -/

/-- The points a run spells out, as (major, minor) (R127). -/
def Run.points (r : Run) : List (Int × Int) := (intRange r.a r.b).map fun u => (u, r.m)

/-- The runs of points whose major coordinates go up by 1 are not empty and spell out the points in order (R127). -/
theorem runsOf_spell {pts : List (Int × Int)} (h : pts.IsChain fun p q => q.1 = p.1 + 1) :
    (runsOf pts).flatMap Run.points = pts ∧ ∀ r ∈ runsOf pts, r.a ≤ r.b := by
  induction pts with
  | nil => simp [runsOf]
  | cons p pts ih =>
    obtain ⟨u, m⟩ := p
    obtain ⟨hhead, htail⟩ := List.isChain_cons.mp h
    obtain ⟨hspell, hle⟩ := ih htail
    have hsingle : Run.points ⟨u, u, m⟩ = [(u, m)] := by
      simp only [Run.points, intRange_cons le_rfl, intRange_of_lt (Int.lt_succ u), List.map_cons, List.map_nil]
    unfold runsOf
    cases hruns : runsOf pts with
    | nil =>
      simp only [hruns, List.flatMap_nil] at hspell
      simp [← hspell, hsingle]
    | cons r rs =>
      rw [hruns] at hspell hle
      obtain ⟨hr, hrs⟩ := List.forall_mem_cons.mp hle
      have hpoints : r.points = (r.a, r.m) :: (intRange (r.a + 1) r.b).map fun u => (u, r.m) := by
        rw [Run.points, intRange_cons hr, List.map_cons]
      have hu : r.a = u + 1 := hhead (r.a, r.m) (by rw [← hspell, List.flatMap_cons, hpoints]; rfl)
      by_cases hm : r.m = m
      · have hmerged : Run.points ⟨u, r.b, m⟩ = (u, m) :: r.points := by
          simp only [Run.points, intRange_cons (show u ≤ r.b by omega), List.map_cons, hu, hm]
        simp only [if_pos hm]
        refine ⟨by rw [List.flatMap_cons, hmerged, List.cons_append, ← List.flatMap_cons, hspell], ?_⟩
        exact List.forall_mem_cons.mpr ⟨by simp only; omega, hrs⟩
      · simp only [if_neg hm]
        refine ⟨by rw [List.flatMap_cons, hsingle, hspell]; rfl, ?_⟩
        exact List.forall_mem_cons.mpr ⟨le_rfl, hle⟩

/-! ## The points of a line -/

/-- The loop of LINE_PIXELS walks the major axis one by one, whichever branch it takes (R126). -/
theorem linePoints_majors (dx dy ystep : Int) (n : Nat) (u y err : Int) :
    (linePoints dx dy ystep n u y err).map Prod.fst = (List.range n).map fun k : Nat => u + (k : Int) := by
  induction n generalizing u y err with
  | zero => rfl
  | succ n ih =>
    rw [linePoints, List.map_cons, apply_ite (List.map Prod.fst), ih, ih, ite_self, map_range_succ_add]

/-- The major coordinates of a line's points go up by 1 to its end (R126). -/
theorem linePixels_majors (x0 y0 x1 y1 : Int) :
    ∃ u0, (linePixels x0 y0 x1 y1).pts.map Prod.fst = intRange u0 (linePixels x0 y0 x1 y1).xEnd := by
  have horder : ∀ steep u0 v0 u1 v1,
      ∃ u, (lineOrder steep u0 v0 u1 v1).pts.map Prod.fst = intRange u (lineOrder steep u0 v0 u1 v1).xEnd := by
    intro steep u0 v0 u1 v1
    unfold lineOrder
    split <;> exact ⟨_, linePoints_majors _ _ _ _ _ _ _⟩
  unfold linePixels
  split <;> exact horder _ _ _ _ _

/-- The runs of a line spell out its points, are not empty, and end at the line's end or before (R127). -/
theorem runsOf_linePixels (x0 y0 x1 y1 : Int) :
    let p := linePixels x0 y0 x1 y1
    (runsOf p.pts).flatMap Run.points = p.pts ∧ ∀ r ∈ runsOf p.pts, r.a ≤ r.b ∧ r.b ≤ p.xEnd := by
  intro p
  obtain ⟨u0, hmajors⟩ := linePixels_majors x0 y0 x1 y1
  have hchain : p.pts.IsChain fun p q => q.1 = p.1 + 1 :=
    (List.isChain_map Prod.fst).mp (hmajors ▸ isChain_intRange u0 _)
  obtain ⟨hspell, hle⟩ := runsOf_spell hchain
  refine ⟨hspell, fun r hr => ⟨hle r hr, ?_⟩⟩
  have hlast : (r.b, r.m) ∈ p.pts := by
    rw [← hspell]
    exact List.mem_flatMap.mpr ⟨r, hr, List.mem_map.mpr ⟨r.b, mem_intRange.mpr ⟨hle r hr, le_rfl⟩, rfl⟩⟩
  have hmajor : r.b ∈ p.pts.map Prod.fst := List.mem_map.mpr ⟨_, hlast, rfl⟩
  rw [hmajors] at hmajor
  exact (mem_intRange.mp hmajor).2

end Sys2Proof.Machine
end

section
/-!
PROOFS. What a window burst writes into the reference controller (R45 to R47), said once for any words that fit its window; then
the statements about the pixels of solid fills and of lines.
-/

namespace Sys2Proof.Machine

/-! ## The controller takes a burst -/

@[simp] theorem Controller.run_nil (m : Mapping) (k : Controller) : k.run m [] = k := rfl

@[simp] theorem Controller.run_cons (m : Mapping) (k : Controller) (ev : BusEvent) (evs : List BusEvent) :
    k.run m (ev :: evs) = (k.consume m ev).run m evs := rfl

@[simp] theorem Controller.run_append (m : Mapping) (k : Controller) (as bs : List BusEvent) :
    k.run m (as ++ bs) = (k.run m as).run m bs := List.foldl_append

/-- A command that does not begin a memory write leaves the ranges, the pointer, `mad` and the pixel words (R45). -/
theorem Controller.command_of_ne {cfg : Config} {b : Byte} (h : b ≠ cfg.opRamwr) (k : Controller) :
    ∃ f, k.command cfg b = { k with writing := false, op := some b, words := 0, bytes := 0, inv := f } := by
  by_cases hon : b = cfg.opInvon
  · exact ⟨true, by simp only [command, if_neg h, if_pos hon]⟩
  · by_cases hoff : b = cfg.opInvoff
    · exact ⟨false, by simp only [command, if_neg h, if_neg hon, if_pos hoff]⟩
    · exact ⟨k.inv, by simp only [command, if_neg h, if_neg hon, if_neg hoff]⟩

/-- The column range command and its two words set the column range. -/
theorem Controller.run_caset {m : Mapping} (h : OpcodesDistinct m.cfg) (k : Controller) (c0 c1 : Word) :
    ∃ f, k.run m [.cmd m.cfg.opCaset, .d16 c0, .d16 c1]
      = { k with writing := false, op := some m.cfg.opCaset, words := 2, bytes := 0, inv := f, cs := c0, ce := c1 } := by
  obtain ⟨-, hramwr, -, -⟩ := h
  obtain ⟨f, hf⟩ := Controller.command_of_ne hramwr k
  exact ⟨f, by simp [consume, hf, wordArg]⟩

/-- The row range command and its two words set the row range. -/
theorem Controller.run_raset {m : Mapping} (h : OpcodesDistinct m.cfg) (k : Controller) (r0 r1 : Word) :
    ∃ f, k.run m [.cmd m.cfg.opRaset, .d16 r0, .d16 r1]
      = { k with writing := false, op := some m.cfg.opRaset, words := 2, bytes := 0, inv := f, rs := r0, re := r1 } := by
  obtain ⟨hcaset, -, hramwr, -⟩ := h
  obtain ⟨f, hf⟩ := Controller.command_of_ne hramwr k
  exact ⟨f, by simp [consume, hf, wordArg, hcaset.symm]⟩

/-- How many columns the controller's window has. -/
def Controller.cols (k : Controller) : Nat := k.ce.toNat + 1 - k.cs.toNat

/-- The controller with its pointer where the `n`-th pixel word of its window goes, row by row (R45). -/
def Controller.atWord (k : Controller) (n : Nat) : Controller :=
  { k with ptrC := k.cs.toNat + n % k.cols, ptrR := k.rs.toNat + n / k.cols }

/-- The addressing-window commands (R100) leave the controller at the first word of the window, writing. -/
theorem Controller.run_setWindow {m : Mapping} (h : OpcodesDistinct m.cfg) (k : Controller) (c0 c1 r0 r1 : Word) :
    ∃ f, k.run m (setWindow m.cfg c0 c1 r0 r1)
      = atWord { k with writing := true, op := some m.cfg.opRamwr, words := 0, bytes := 0, inv := f,
                        cs := c0, ce := c1, rs := r0, re := r1 } 0 := by
  obtain ⟨f, hcaset⟩ := k.run_caset h c0 c1
  obtain ⟨g, hraset⟩ := (k.run m [.cmd m.cfg.opCaset, .d16 c0, .d16 c1]).run_raset h r0 r1
  have hsplit : setWindow m.cfg c0 c1 r0 r1 = ([.cmd m.cfg.opCaset, .d16 c0, .d16 c1] : List BusEvent)
      ++ (([.cmd m.cfg.opRaset, .d16 r0, .d16 r1] : List BusEvent) ++ [.cmd m.cfg.opRamwr]) := rfl
  refine ⟨g, ?_⟩
  rw [hsplit, run_append, run_append, hraset, hcaset]
  simp [consume, command, atWord]

/-- The pointer goes from one pixel word to the next, the column running fastest (R45). -/
theorem Controller.atWord_advance {k : Controller} (h : k.cs.toNat ≤ k.ce.toNat) (n : Nat) :
    (k.atWord n).advance = k.atWord (n + 1) := by
  have hpos : 0 < k.cols := by unfold cols; omega
  have hlt := Nat.mod_lt n hpos
  by_cases hwrap : n % k.cols + 1 = k.cols
  · obtain ⟨hdiv, hmod⟩ : (n + 1) / k.cols = n / k.cols + 1 ∧ (n + 1) % k.cols = 0 :=
      (Nat.div_mod_unique hpos).mpr ⟨by rw [Nat.mul_succ]; have := Nat.mod_add_div n k.cols; omega, hpos⟩
    have hend : (k.atWord n).ptrC + 1 > k.ce.toNat := by simp only [atWord, cols] at hwrap ⊢; omega
    rw [advance, if_pos (by exact hend)]
    simp only [atWord, hdiv, hmod, Nat.add_zero, Nat.add_assoc]
  · obtain ⟨hdiv, hmod⟩ : (n + 1) / k.cols = n / k.cols ∧ (n + 1) % k.cols = n % k.cols + 1 :=
      (Nat.div_mod_unique hpos).mpr ⟨by have := Nat.mod_add_div n k.cols; omega, by omega⟩
    have hend : ¬ (k.atWord n).ptrC + 1 > k.ce.toNat := by simp only [atWord, cols] at hwrap hlt ⊢; omega
    rw [advance, if_neg (by exact hend)]
    simp only [atWord, hdiv, hmod, Nat.add_assoc]

/-- Pixel words land one after another where the pointer goes. -/
theorem Controller.run_words (m : Mapping) {k : Controller} (hw : k.writing = true) (hc : k.cs.toNat ≤ k.ce.toNat)
    (words : List Word) (n : Nat) :
    (k.atWord n).run m (words.map .d16) = { k.atWord (n + words.length) with
      writes := k.writes ++ (words.zipIdx n).map fun p => ⟨(k.atWord p.2).landing m, p.1⟩ } := by
  induction words generalizing k n with
  | nil => simp [atWord]
  | cons w words ih =>
    have hword : (k.atWord n).consume m (.d16 w)
        = ({ k with writes := k.writes ++ [⟨(k.atWord n).landing m, w⟩] } : Controller).atWord (n + 1) := by
      rw [← atWord_advance (by exact hc)]
      exact if_pos hw
    rw [List.map_cons, run_cons, hword, ih (by exact hw) (by exact hc)]
    simp [atWord, landing, cols, Nat.add_assoc, Nat.add_comm 1]

/-! ## What a list of events writes -/

/-- From any controller that holds `S.madctl`, the events write these pixel words, and leave the value held. -/
def State.Writes (s : State) (evs : List BusEvent) (ws : List PixelWrite) : Prop :=
  ∀ k : Controller, k.mad = s.ds.madctl →
    (k.run (Mapping.of s) evs).mad = s.ds.madctl ∧ (k.run (Mapping.of s) evs).writes = k.writes ++ ws

theorem State.Writes.nil (s : State) : s.Writes [] [] := fun _ hk => ⟨hk, (List.append_nil _).symm⟩

theorem State.Writes.append {s : State} {as bs : List BusEvent} {us vs : List PixelWrite} (ha : s.Writes as us)
    (hb : s.Writes bs vs) : s.Writes (as ++ bs) (us ++ vs) := by
  intro k hk
  obtain ⟨hmad, hwrites⟩ := ha k hk
  obtain ⟨hmad', hwrites'⟩ := hb _ hmad
  rw [Controller.run_append]
  exact ⟨hmad', by rw [hwrites', hwrites, List.append_assoc]⟩

theorem State.Writes.flatMap {α : Type} {s : State} {l : List α} {f : α → List BusEvent} {g : α → List PixelWrite}
    (h : ∀ a ∈ l, s.Writes (f a) (g a)) : s.Writes (l.flatMap f) (l.flatMap g) := by
  induction l with
  | nil => exact .nil s
  | cons a l ih =>
    obtain ⟨ha, hl⟩ := List.forall_mem_cons.mp h
    exact ha.append (ih hl)

/-- What the events write is what the statements about pixels speak of. -/
theorem State.Writes.writesOf {s : State} {evs : List BusEvent} {ws : List PixelWrite} (h : s.Writes evs ws) (k : Controller) :
    writesOf s k evs = ws := (h (k.holding s.ds.madctl) rfl).2

/-! ## What a window burst writes -/

/-- A word at a row of the range lands on the logical pixel at the pointer, if the controller holds the base value (R46). -/
theorem Controller.landing_of_mad_eq {m : Mapping} {k : Controller} (hrow : k.ptrR ≤ k.re.toNat) (hmad : k.mad = m.base) :
    k.landing m = some ((k.ptrC : Int) - (m.colOffset.toNat : Int), (k.ptrR : Int) - (m.rowOffset.toNat : Int)) := by
  rw [landing, if_neg (by omega), if_pos hmad]

/-- No more words than a window covers land row by row from its first place on, if the controller holds the base value (R46). -/
theorem Controller.run_window_words {m : Mapping} (hd : OpcodesDistinct m.cfg) {k : Controller} (hmad : k.mad = m.base)
    {c0 c1 r0 r1 : Word} (hc : c0.toNat ≤ c1.toNat) {cols : Nat} (hcols : c1.toNat + 1 - c0.toNat = cols) {words : List Word}
    (hlen : words.length ≤ cols * (r1.toNat + 1 - r0.toNat)) :
    let k' := (k.run m (setWindow m.cfg c0 c1 r0 r1)).run m (words.map .d16)
    k'.mad = m.base ∧ k'.writes = k.writes ++ words.zipIdx.map fun p =>
      ⟨some ((c0.toNat : Int) + ((p.2 % cols : Nat) : Int) - (m.colOffset.toNat : Int),
        (r0.toNat : Int) + ((p.2 / cols : Nat) : Int) - (m.rowOffset.toNat : Int)), p.1⟩ := by
  intro k'
  obtain ⟨f, hwindow⟩ := k.run_setWindow hd c0 c1 r0 r1
  have hk' : k' = _ := (congrArg (fun q => Controller.run m q (words.map .d16)) hwindow).trans
    (Controller.run_words m rfl hc words 0)
  subst hcols
  rw [hk']
  refine ⟨hmad, congrArg (k.writes ++ ·) (List.map_congr_left fun p hp => ?_)⟩
  obtain ⟨-, hidx, -⟩ := List.mem_zipIdx (x := p.1) (i := p.2) hp
  have hrow : p.2 / (c1.toNat + 1 - c0.toNat) < r1.toNat + 1 - r0.toNat := Nat.div_lt_of_lt_mul (by omega)
  have hle : r0.toNat + p.2 / (c1.toNat + 1 - c0.toNat) ≤ r1.toNat := by
    revert hrow
    generalize p.2 / (c1.toNat + 1 - c0.toNat) = q
    omega
  rw [Controller.landing_of_mad_eq (by exact hle) (by exact hmad)]
  simp only [atWord, cols, Nat.cast_add]

/-- A coordinate that fits a 16-bit word is sent as it is. -/
theorem toNat_u16 {v : Int} (h0 : 0 ≤ v) (h : v < 65536) : ((u16 v).toNat : Int) = v := by
  rw [u16, BitVec.toNat_ofInt]
  omega

/-- The column and the row of a pixel on the screen are sent with their offsets added, where windows fit 16-bit words (R100). -/
theorem State.WindowFits.sent {s : State} (h : s.WindowFits) {x y : Int} (hp : s.OnScreen (x, y)) :
    ((sentCol s x).toNat : Int) = x + (s.ds.colOffset.toNat : Int)
      ∧ ((sentRow s y).toNat : Int) = y + (s.ds.rowOffset.toNat : Int) := by
  obtain ⟨hx, hxw, hy, hyh⟩ := hp
  simp only at hx hxw hy hyh
  unfold State.WindowFits at h
  exact ⟨toNat_u16 (by omega) (by omega), toNat_u16 (by omega) (by omega)⟩

/-- Of a burst's events the controller takes the window and the words; the rest has no effect on it (R45). -/
theorem Controller.run_burstEvents (m : Mapping) (k : Controller) (s : State) (x0 y0 x1 y1 : Int) (words : List Word) :
    k.run m (burstEvents s x0 y0 x1 y1 words)
      = (k.run m (setWindow s.cfg (sentCol s x0) (sentCol s x1) (sentRow s y0) (sentRow s y1))).run m (words.map .d16) := by
  simp [burstEvents, setWindow, sentCol, sentRow, consume]

/-- A burst on the screen with no more words than its window covers writes them row by row from its first pixel on (R46, R100). -/
theorem State.Writes.burst {s : State} (hd : OpcodesDistinct s.cfg) (hf : s.WindowFits) {x0 y0 x1 y1 : Int}
    (h0 : s.OnScreen (x0, y0)) (h1 : s.OnScreen (x1, y1)) (hx : x0 ≤ x1) {words : List Word}
    (hlen : words.length ≤ Window.area ⟨x0, y0, x1, y1⟩) :
    s.Writes (burstEvents s x0 y0 x1 y1 words) (words.zipIdx.map fun p =>
      ⟨some (x0 + ((p.2 % spanLen x0 x1 : Nat) : Int), y0 + ((p.2 / spanLen x0 x1 : Nat) : Int)), p.1⟩) := by
  intro k hk
  obtain ⟨hc0, hr0⟩ := hf.sent h0
  obtain ⟨hc1, hr1⟩ := hf.sent h1
  have hcols : (sentCol s x1).toNat + 1 - (sentCol s x0).toNat = spanLen x0 x1 := by unfold spanLen; omega
  have hrows : (sentRow s y1).toNat + 1 - (sentRow s y0).toNat = spanLen y0 y1 := by unfold spanLen; omega
  have hrun := Controller.run_window_words (m := Mapping.of s) hd hk (by omega) hcols (words := words) (by rwa [hrows])
  simp only [hc0, hr0, Mapping.of, Int.add_right_comm _ (s.ds.colOffset.toNat : Int),
    Int.add_right_comm _ (s.ds.rowOffset.toNat : Int), Int.add_sub_cancel] at hrun
  rw [Controller.run_burstEvents]
  exact hrun

/-! ## The pixels that statements list -/

theorem zipIdx_replicate (n : Nat) (c : Word) : (List.replicate n c).zipIdx = (List.range n).map fun q => (c, q) :=
  List.ext_getElem (by simp) (by simp)

/-- Counting row by row: quotient and remainder by the number of columns are the row and the column. -/
theorem map_range_rows {α : Type} (rows cols : Nat) (f : Nat → Nat → α) :
    ((List.range (cols * rows)).map fun q => f (q % cols) (q / cols))
      = (List.range rows).flatMap fun j => (List.range cols).map fun i => f i j := by
  induction rows with
  | zero => rfl
  | succ n ih =>
    have hrow : ∀ i ∈ List.range cols, f ((cols * n + i) % cols) ((cols * n + i) / cols) = f i n := fun i hi => by
      have hlt := List.mem_range.mp hi
      rw [Nat.mul_add_mod, Nat.mod_eq_of_lt hlt, Nat.mul_add_div (by omega), Nat.div_eq_of_lt hlt, Nat.add_zero]
    rw [Nat.mul_succ, List.range_add, List.map_append, ih, List.range_succ, List.flatMap_append, List.map_map,
      List.flatMap_singleton]
    exact congrArg _ (List.map_congr_left hrow)

/-- The elements of a range that are within `0..n-1`. -/
theorem filter_intRange (n a b : Int) :
    (intRange a b).filter (fun u => decide (0 ≤ u ∧ u < n)) = intRange (max a 0) (min b (n - 1)) := by
  induction a using intRange_induction (b := b) with
  | empty a h => rw [intRange_of_lt h, intRange_of_lt (by omega), List.filter_nil]
  | cons a h ih =>
    rw [intRange_cons h, List.filter_cons, ih]
    by_cases hin : 0 ≤ a ∧ a < n
    · rw [if_pos (decide_eq_true hin), show max (a + 1) 0 = a + 1 by omega, show max a 0 = a by omega,
        ← intRange_cons (by omega)]
    · rw [if_neg (by simpa using hin)]
      by_cases h0 : a < 0
      · rw [show max (a + 1) 0 = max a 0 by omega]
      · rw [intRange_of_lt (by omega), intRange_of_lt (by omega)]

theorem flatMap_filter {α β : Type} (p : α → Bool) (f : α → List β) (l : List α) :
    (l.filter p).flatMap f = l.flatMap fun a => if p a then f a else [] := by
  induction l with
  | nil => rfl
  | cons a l ih => by_cases h : p a = true <;> simp [h, ih]

theorem drawnPixels_flatMap {α : Type} (s : State) (l : List α) (f : α → List (Int × Int)) (c : Word) :
    s.drawnPixels (l.flatMap f) c = l.flatMap fun a => s.drawnPixels (f a) c := by
  simp only [State.drawnPixels, List.filter_flatMap, List.map_flatMap]

/-- The pixels drawn of a span along one axis: those whose coordinate is on the screen, if the other coordinate is. -/
theorem drawnPixels_span {s : State} {place : Int → Int × Int} {p : Prop} [Decidable p] {n : Int}
    (h : ∀ u, s.OnScreen (place u) ↔ p ∧ 0 ≤ u ∧ u < n) (a b : Int) (c : Word) :
    s.drawnPixels ((intRange a b).map place) c
      = if p then (intRange (max a 0) (min b (n - 1))).map fun u => ⟨some (place u), c⟩ else [] := by
  have hfilter : (fun q => decide (s.OnScreen q)) ∘ place = fun u => decide (p ∧ 0 ≤ u ∧ u < n) :=
    funext fun u => decide_eq_decide.mpr (h u)
  rw [← filter_intRange, State.drawnPixels, List.filter_map, List.map_map, hfilter]
  by_cases hp : p
  · simp only [hp, true_and, if_true, Function.comp_def]
  · simp [hp]

/-- The same, with nothing drawn where no coordinate of the span is on the screen. -/
theorem drawnPixels_span_onScreen {s : State} {place : Int → Int × Int} {p : Prop} [Decidable p] {n : Int}
    (h : ∀ u, s.OnScreen (place u) ↔ p ∧ 0 ≤ u ∧ u < n) (a b : Int) (c : Word) :
    s.drawnPixels ((intRange a b).map place) c
      = if p ∧ max a 0 ≤ min b (n - 1) then (intRange (max a 0) (min b (n - 1))).map fun u => ⟨some (place u), c⟩ else [] := by
  rw [drawnPixels_span h]
  by_cases hspan : max a 0 ≤ min b (n - 1)
  · simp only [hspan, and_true]
  · simp only [intRange_of_lt (not_le.mp hspan), List.map_nil, ite_self]

/-! ## Solid fills -/

/-- The pixels drawn of a rectangle: those of its part on the screen, row by row (R102). -/
theorem drawnPixels_rectPixels (s : State) (x y w h : Int) (c : Word) :
    s.drawnPixels (rectPixels x y w h) c
      = (intRange (max y 0) (min (y + h - 1) ((s.ds.height.toNat : Int) - 1))).flatMap fun v =>
          (intRange (max x 0) (min (x + w - 1) ((s.ds.width.toNat : Int) - 1))).map fun u => ⟨some (u, v), c⟩ := by
  have hrow : ∀ v : Int, s.drawnPixels ((intRange x (x + w - 1)).map fun u => (u, v)) c = _ := fun v =>
    drawnPixels_span (p := 0 ≤ v ∧ v < (s.ds.height.toNat : Int)) (n := (s.ds.width.toNat : Int))
      (fun u => by simp only [State.OnScreen]; omega) _ _ _
  rw [rectPixels, drawnPixels_flatMap, ← filter_intRange (s.ds.height.toNat : Int), flatMap_filter]
  simp only [hrow, decide_eq_true_eq]

/-- A burst of one colour over the whole of its window writes the window's pixels row by row (R100, R103). -/
theorem State.Writes.fill {s : State} (hd : OpcodesDistinct s.cfg) (hf : s.WindowFits) {x0 y0 x1 y1 : Int}
    (h0 : s.OnScreen (x0, y0)) (h1 : s.OnScreen (x1, y1)) (hx : x0 ≤ x1) (c : Word) :
    s.Writes (burstEvents s x0 y0 x1 y1 (List.replicate (Window.area ⟨x0, y0, x1, y1⟩) c))
      ((intRange y0 y1).flatMap fun v => (intRange x0 x1).map fun u => ⟨some (u, v), c⟩) := by
  have hburst := State.Writes.burst hd hf h0 h1 hx (words := List.replicate (Window.area ⟨x0, y0, x1, y1⟩) c) (by simp)
  rw [zipIdx_replicate, List.map_map] at hburst
  have hrows := map_range_rows (spanLen y0 y1) (spanLen x0 x1) fun i j =>
    (⟨some (x0 + (i : Int), y0 + (j : Int)), c⟩ : PixelWrite)
  simp only [intRange, List.flatMap_map, List.map_map, Function.comp_def]
  rw [← hrows]
  exact hburst

/-- A solid fill writes the pixels of its rectangle that are on the screen (R103, R104). -/
theorem State.Writes.solid {s : State} (hd : OpcodesDistinct s.cfg) (hf : s.WindowFits) (x y w h : Int) (c : Word) :
    s.Writes (solidEvents s x y w h c) (s.drawnPixels (rectPixels x y w h) c) := by
  rw [drawnPixels_rectPixels]
  unfold solidEvents
  simp only
  split
  · rename_i hon
    obtain ⟨hw, hh, hx, hy⟩ := hon
    rw [← Window.area_eq _ _ _ _ hx hy]
    exact State.Writes.fill hd hf (by simp only [State.OnScreen]; omega) (by simp only [State.OnScreen]; omega) hx c
  · rename_i hoff
    by_cases hx : max x 0 ≤ min (x + w - 1) ((s.ds.width.toNat : Int) - 1)
    · rw [intRange_of_lt (a := max y 0) (by omega)]
      exact .nil s
    · rw [intRange_of_lt (a := max x 0) (by omega)]
      simpa only [List.map_nil, List.flatMap_eq_nil_iff.mpr fun _ _ => rfl] using State.Writes.nil s

/-! ## Lines -/

/-- A burst that sends only the first words of a one-row window writes the start of the row. -/
theorem State.Writes.row {s : State} (hd : OpcodesDistinct s.cfg) (hf : s.WindowFits) {a b e m : Int} (ha : s.OnScreen (a, m))
    (he : s.OnScreen (e, m)) (hab : a ≤ b) (hbe : b ≤ e) (w : Word) :
    s.Writes (burstEvents s a m e m (List.replicate (spanLen a b) w)) ((intRange a b).map fun u => ⟨some (u, m), w⟩) := by
  have hlen : spanLen a b ≤ spanLen a e := by unfold spanLen; omega
  have harea : spanLen a b ≤ Window.area ⟨a, m, e, m⟩ := by simpa [Window.area, spanLen] using hlen
  have hburst := State.Writes.burst hd hf ha he (hab.trans hbe) (words := List.replicate (spanLen a b) w) (by simpa using harea)
  rw [zipIdx_replicate, List.map_map] at hburst
  rw [intRange, List.map_map]
  convert hburst using 1
  refine List.map_congr_left fun q hq => ?_
  have hlt : q < spanLen a e := (List.mem_range.mp hq).trans_le hlen
  simp only [Function.comp_apply, Nat.mod_eq_of_lt hlt, Nat.div_eq_of_lt hlt, Nat.cast_zero, Int.add_zero]

/-- A burst that sends only the first words of a one-column window writes the start of the column. -/
theorem State.Writes.column {s : State} (hd : OpcodesDistinct s.cfg) (hf : s.WindowFits) {a b e m : Int}
    (ha : s.OnScreen (m, a)) (he : s.OnScreen (m, e)) (hbe : b ≤ e) (w : Word) :
    s.Writes (burstEvents s m a m e (List.replicate (spanLen a b) w)) ((intRange a b).map fun u => ⟨some (m, u), w⟩) := by
  have hone : spanLen m m = 1 := by simp [spanLen]
  have hlen : spanLen a b ≤ spanLen a e := by unfold spanLen; omega
  have harea : spanLen a b ≤ Window.area ⟨m, a, m, e⟩ := by rwa [Window.area, hone, Nat.one_mul]
  have hburst := State.Writes.burst hd hf ha he le_rfl (words := List.replicate (spanLen a b) w) (by simpa using harea)
  rw [zipIdx_replicate, List.map_map, hone] at hburst
  rw [intRange, List.map_map]
  simpa [Function.comp_def, Nat.mod_one] using hburst

/-- The burst of a run writes the run's points that are on the screen, although its window goes on to the line's end (R104,
R127). -/
theorem State.Writes.run {s : State} (hd : OpcodesDistinct s.cfg) (hf : s.WindowFits) (steep : Bool) {xEnd : Int} {r : Run}
    (hend : r.b ≤ xEnd) (w : Word) :
    s.Writes (runEvents s steep xEnd r w) (s.drawnPixels (r.points.map fun q => if steep then (q.2, q.1) else q) w) := by
  cases steep
  · have hspan := drawnPixels_span_onScreen (s := s) (place := fun u => (u, r.m))
      (p := 0 ≤ r.m ∧ r.m < (s.ds.height.toNat : Int)) (n := (s.ds.width.toNat : Int))
      (fun u => by simp only [State.OnScreen]; omega) r.a r.b w
    simp only [Run.points, List.map_map, Function.comp_def, Bool.false_eq_true, if_false, runEvents, hspan, and_assoc]
    split
    · rename_i hon
      exact State.Writes.row hd hf (by simp only [State.OnScreen]; omega) (by simp only [State.OnScreen]; omega) hon.2.2
        (by omega) w
    · exact .nil s
  · have hspan := drawnPixels_span_onScreen (s := s) (place := fun u => (r.m, u))
      (p := 0 ≤ r.m ∧ r.m < (s.ds.width.toNat : Int)) (n := (s.ds.height.toNat : Int))
      (fun u => by simp only [State.OnScreen]; omega) r.a r.b w
    simp only [Run.points, List.map_map, Function.comp_def, if_true, runEvents, hspan, and_assoc]
    split
    · rename_i hon
      exact State.Writes.column hd hf (by simp only [State.OnScreen]; omega) (by simp only [State.OnScreen]; omega) (by omega) w
    · exact .nil s

/-- The bursts of a line's runs write the line's points that are on the screen, in order (R125, R127). -/
theorem State.Writes.line {s : State} (hd : OpcodesDistinct s.cfg) (hf : s.WindowFits) (x0 y0 x1 y1 : Int) (c : Word) :
    s.Writes (eventsOf (line s x0 y0 x1 y1 c)) (s.drawnPixels (linePixels x0 y0 x1 y1).logical (plainWord s c)) := by
  obtain ⟨hspell, hends⟩ := runsOf_linePixels x0 y0 x1 y1
  have hlogical : (linePixels x0 y0 x1 y1).logical = (runsOf (linePixels x0 y0 x1 y1).pts).flatMap fun r =>
      r.points.map fun q => if (linePixels x0 y0 x1 y1).steep then (q.2, q.1) else q := by
    rw [LinePixels.logical, ← List.map_flatMap, hspell]
  rw [line_events, hlogical, drawnPixels_flatMap]
  exact .flatMap fun r hr => .run hd hf _ (hends r hr).2 _

/-! ## The statements about pixels -/

/-- The events a request adds to the trace, if it writes no register and its awaits are all answered. -/
theorem exec_answered_events {i : Instr} {s t : State} (h : s.TransportAnswers) (hw : i.WellFormed) (hc : commitOf i s = id)
    (hs : settledFor i s = s) (he : exec i s = .next t) : t.trace.drop s.trace.length = eventsOf (sectionsOf i s) := by
  rw [exec_answered h hw hc hs] at he
  obtain rfl := Host.Outcome.next.inj he
  exact List.drop_left

/-- Settles O52: each of the three is one solid fill. -/
theorem solidFillsWriteExactlyTheirPixels : Obligations.SolidFillsWriteExactlyTheirPixels := by
  intro s t k x y w h c hanswers hd hf
  refine ⟨fun he => ?_, fun he => ?_, fun he => ?_⟩ <;> rw [exec_answered_events hanswers rfl rfl rfl he, sectionsOf]
  · rw [hline_events]
    exact (State.Writes.solid hd hf _ _ _ _ _).writesOf k
  · rw [vline_events]
    exact (State.Writes.solid hd hf _ _ _ _ _).writesOf k
  · rw [fillRect_events]
    exact (State.Writes.solid hd hf _ _ _ _ _).writesOf k

/-- Settles O53: each run's burst writes its run, and the runs spell out the points. -/
theorem lineWritesExactlyItsPoints : Obligations.LineWritesExactlyItsPoints := by
  intro s t k x0 y0 x1 y1 c hanswers hd hf he
  rw [exec_answered_events hanswers rfl rfl rfl he, sectionsOf]
  exact (State.Writes.line hd hf _ _ _ _ c).writesOf k

end Sys2Proof.Machine
end

section
/-!
PROOFS. What a row of the opcode map matches and what it reads; then the statements about the encoding: the decoder gives a
request back from its encoding, takes exactly one request, and refuses exactly the reserved head words.
-/

namespace Sys2Proof

/-! ## The decoder takes what the encoder gives -/

/-- Words that are a request's encoding and more behind it decode to the request (R60 to R65). -/
theorem decode_of_eq_encode {ws rest : List Word} {i : Instr} (hw : i.WellFormed) (h : ws = encode i ++ rest) :
    decode ws = .ok i rest := h ▸ decode_encode rest hw

/-- Settles O1: the written words are the encodings of the ten requests. -/
theorem decodesWrittenWords : Obligations.DecodesWrittenWords := by
  refine ⟨?_, ?_, ?_, ?_, ?_, ?_, ?_, ?_, ?_, ?_⟩
  all_goals exact decode_of_eq_encode rfl rfl

/-- Settles O2: the round trip of each row of the opcode map. -/
theorem decodeEncodeRoundTrip : Obligations.DecodeEncodeRoundTrip := fun _ rest h => decode_encode rest h

/-! ## The head words of a row -/

/-- The mask of a row that has a `SUB` field of `k` bits: it fixes every other bit of the head word (R61). -/
def fieldMask (k : Nat) : Word := BitVec.allOnes 16 <<< k

theorem headWord_toNat (opc sub : Byte) : (headWord opc sub).toNat = opc.toNat * 256 + sub.toNat := by
  rw [headWord, ofBytes, BitVec.toNat_append, ← Nat.shiftLeft_add_eq_or_of_lt sub.isLt, Nat.shiftLeft_eq]

/-- A head word matches an opcode with a `SUB` field of `k` bits where its `OPC` is that opcode and its `SUB` fits the field. -/
theorem and_fieldMask_eq_iff {k : Nat} (hk : k ≤ 8) (w0 : Word) (opc : Byte) :
    w0 &&& fieldMask k = headWord opc 0 ↔ w0.toNat / 256 = opc.toNat ∧ w0.toNat % 256 < 2 ^ k := by
  have hw := w0.isLt
  have hopc := opc.isLt
  rw [fieldMask, ← BitVec.shiftLeft_ushiftRight, ← BitVec.toNat_inj, headWord_toNat, BitVec.toNat_shiftLeft,
    BitVec.toNat_ushiftRight, Nat.shiftRight_eq_div_pow, Nat.shiftLeft_eq]
  interval_cases k <;> simp <;> omega

/-- Such a head word is its opcode with the value of its field. -/
theorem eq_headWord_of_and_fieldMask {w0 : Word} {k : Nat} {opc : Byte} (hk : k ≤ 8)
    (h : w0 &&& fieldMask k = headWord opc 0) : w0 = headWord opc ((w0.extractLsb' 0 k).setWidth 8) := by
  obtain ⟨hopc, hsub⟩ := (and_fieldMask_eq_iff hk w0 opc).mp h
  have hfield : w0.toNat % 2 ^ k = w0.toNat % 256 := by
    rw [← Nat.mod_mod_of_dvd _ (show 2 ^ k ∣ 256 from pow_dvd_pow 2 hk), Nat.mod_eq_of_lt hsub]
  apply BitVec.eq_of_toNat_eq
  rw [headWord_toNat]
  simp [hfield]
  omega

/-! ## What a row reads -/

/-- The words `used` stand for the request `i`: they are its encoding, but for the ignored byte of COLOR565 (R62). -/
def StandsFor (used : List Word) (i : Instr) : Prop :=
  match i with
  | .color565 r g b => ∃ ignored : Byte, used = [0x0800, ofBytes r g, ofBytes ignored b]
  | _ => used = encode i

theorem StandsFor.of_eq_encode {used : List Word} {i : Instr} (h : used = encode i) : StandsFor used i := by
  cases i
  case color565 r g b => exact ⟨0, h⟩
  all_goals exact h

theorem StandsFor.length {used : List Word} {i : Instr} (h : StandsFor used i) : used.length = (encode i).length := by
  cases i
  case color565 r g b =>
    obtain ⟨ignored, rfl⟩ := h
    rfl
  all_goals exact congrArg List.length h

/-- The row reads every head word it matches, with its operand words, as the request those words stand for. -/
def Row.Reads (r : Row) : Prop :=
  ∀ (w0 : Word) (ops : List Word), r.matchesHead w0 = true → ops.length = r.operands →
    ∃ i, r.build w0 ops = some i ∧ StandsFor (w0 :: ops) i

/-- A row without a `SUB` field matches its pattern alone. -/
theorem Row.Reads.of_fixed {r : Row} (hmask : r.mask = BitVec.allOnes 16)
    (h : ∀ ops : List Word, ops.length = r.operands →
      ∃ i, r.build r.pattern ops = some i ∧ StandsFor (r.pattern :: ops) i) : r.Reads := by
  intro w0 ops hmatch hops
  obtain rfl : w0 = r.pattern := by simpa only [Row.matchesHead, hmask, BitVec.and_allOnes, beq_iff_eq] using hmatch
  exact h ops hops

/-- A row with a `SUB` field reads its requests if they are encoded with the field's value as `SUB`. -/
theorem Row.Reads.of_field {r : Row} (k : Nat) (opc : Byte) (hk : k ≤ 8) (hmask : r.mask = fieldMask k)
    (hpattern : r.pattern = headWord opc 0)
    (h : ∀ (w0 : Word) (ops : List Word), ops.length = r.operands →
      ∃ i, r.build w0 ops = some i ∧ encode i = headWord opc ((w0.extractLsb' 0 k).setWidth 8) :: ops) : r.Reads := by
  intro w0 ops hmatch hops
  obtain ⟨i, hbuild, hencode⟩ := h w0 ops hops
  have hmasked : w0 &&& fieldMask k = headWord opc 0 := by
    simpa only [Row.matchesHead, hmask, hpattern, beq_iff_eq] using hmatch
  refine ⟨i, hbuild, .of_eq_encode ?_⟩
  rw [hencode, ← eq_headWord_of_and_fieldMask hk hmasked]

theorem ofBytes_hiByte_loByte (w : Word) : ofBytes (hiByte w) (loByte w) = w :=
  (BitVec.extractLsb'_append_extractLsb'_eq_extractLsb' rfl).trans BitVec.extractLsb'_eq_self

/-- The flag of a row whose `SUB` field is one bit. -/
theorem ofBool_getLsbD_zero (w0 : Word) : BitVec.ofBool (w0.getLsbD 0) = w0.extractLsb' 0 1 := by
  ext j hj
  obtain rfl : j = 0 := by omega
  simp

/-- The `SUB` byte of a row whose `SUB` field is the whole byte. -/
theorem subOf_eq_setWidth (w0 : Word) : subOf w0 = (w0.extractLsb' 0 8).setWidth 8 := (BitVec.setWidth_eq _).symm

theorem controlRows_read : ∀ r ∈ controlRows, r.Reads := by
  simp only [controlRows, List.forall_mem_cons, List.not_mem_nil, false_imp_iff, implies_true, and_true]
  refine ⟨?nop, ?init, ?runTable, ?setRotation, ?getRotation, ?invert, ?getWidth, ?getHeight, ?color565, ?clearStatus⟩
  case init => exact .of_field 2 0x01 (by decide) rfl rfl fun | _, [], _ => ⟨_, rfl, rfl⟩
  case runTable => exact .of_field 3 0x02 (by decide) rfl rfl fun | _, [], _ => ⟨_, rfl, rfl⟩
  case setRotation =>
    exact .of_field 8 0x03 (by decide) rfl rfl fun | w0, [], _ => ⟨_, rfl, by rw [← subOf_eq_setWidth]; rfl⟩
  case invert =>
    exact .of_field 1 0x05 (by decide) rfl rfl fun | w0, [], _ => ⟨_, rfl, by rw [← ofBool_getLsbD_zero]; rfl⟩
  case color565 =>
    exact .of_fixed rfl fun | [rg, b], _ => ⟨_, rfl, hiByte b, by simp only [ofBytes_hiByte_loByte]⟩
  all_goals exact .of_fixed rfl fun | [], _ => ⟨_, rfl, rfl⟩

theorem lineRows_read : ∀ r ∈ lineRows, r.Reads := by
  simp only [lineRows, List.forall_mem_cons, List.not_mem_nil, false_imp_iff, implies_true, and_true]
  exact ⟨.of_fixed rfl fun | [_, _, _], _ => ⟨_, rfl, rfl⟩,
    .of_fixed rfl fun | [_, _, _, _], _ => ⟨_, rfl, rfl⟩,
    .of_fixed rfl fun | [_, _, _, _], _ => ⟨_, rfl, rfl⟩,
    .of_fixed rfl fun | [_, _, _, _, _], _ => ⟨_, rfl, rfl⟩,
    .of_fixed rfl fun | [_, _, _, _, _], _ => ⟨_, rfl, rfl⟩,
    .of_fixed rfl fun | [_, _, _, _, _], _ => ⟨_, rfl, rfl⟩⟩

theorem circleRows_read : ∀ r ∈ circleRows, r.Reads := by
  simp only [circleRows, List.forall_mem_cons, List.not_mem_nil, false_imp_iff, implies_true, and_true]
  exact ⟨.of_fixed rfl fun | [_, _, _, _], _ => ⟨_, rfl, rfl⟩,
    .of_field 4 0x19 (by decide) rfl rfl fun | _, [_, _, _, _], _ => ⟨_, rfl, rfl⟩,
    .of_fixed rfl fun | [_, _, _, _], _ => ⟨_, rfl, rfl⟩,
    .of_field 2 0x1B (by decide) rfl rfl fun | _, [_, _, _, _, _], _ => ⟨_, rfl, rfl⟩,
    .of_fixed rfl fun | [_, _, _, _, _, _], _ => ⟨_, rfl, rfl⟩,
    .of_fixed rfl fun | [_, _, _, _, _, _], _ => ⟨_, rfl, rfl⟩⟩

theorem triangleRows_read : ∀ r ∈ triangleRows, r.Reads := by
  simp only [triangleRows, List.forall_mem_cons, List.not_mem_nil, false_imp_iff, implies_true, and_true]
  exact ⟨.of_fixed rfl fun | [_, _, _, _, _, _, _], _ => ⟨_, rfl, rfl⟩,
    .of_fixed rfl fun | [_, _, _, _, _, _, _], _ => ⟨_, rfl, rfl⟩,
    .of_fixed rfl fun | [_, _, _, _, _, alo, ahi], _ => ⟨_, rfl, by
      simp only [StandsFor, encode, ofAddrWords, BitVec.extractLsb'_append_eq_left, BitVec.extractLsb'_append_eq_right]; rfl⟩⟩

theorem textRows_read : ∀ r ∈ textRows, r.Reads := by
  simp only [textRows, List.forall_mem_cons, List.not_mem_nil, false_imp_iff, implies_true, and_true]
  refine ⟨?drawChar, ?writeChar, ?setCursor, ?setTextColor, ?setTextScale, ?setTextWrap⟩
  case drawChar =>
    exact .of_field 1 0x28 (by decide) rfl rfl fun | w0, [_, _, _, _, sc], _ => ⟨_, rfl, by
      rw [← ofBool_getLsbD_zero, encode, ofBytes_hiByte_loByte]⟩
  case setTextWrap =>
    exact .of_field 1 0x2D (by decide) rfl rfl fun | w0, [], _ => ⟨_, rfl, by rw [← ofBool_getLsbD_zero]; rfl⟩
  case writeChar =>
    exact .of_field 8 0x29 (by decide) rfl rfl fun | w0, [], _ => ⟨_, rfl, by rw [← subOf_eq_setWidth]; rfl⟩
  case setTextScale =>
    exact .of_field 8 0x2C (by decide) rfl rfl fun | w0, [], _ => ⟨_, rfl, by rw [← subOf_eq_setWidth]; rfl⟩
  all_goals exact .of_fixed rfl fun | [_, _], _ => ⟨_, rfl, rfl⟩

/-- Every row of the opcode map reads its requests (R65). -/
theorem rows_read {r : Row} (hr : r ∈ rows) : r.Reads := by
  simp only [rows, List.mem_append] at hr
  rcases hr with (((hr | hr) | hr) | hr) | hr
  · exact controlRows_read r hr
  · exact lineRows_read r hr
  · exact circleRows_read r hr
  · exact triangleRows_read r hr
  · exact textRows_read r hr

/-- Settles O3: the row of the head word reads the words the decoder takes. -/
theorem decodeTakesExactlyOneRequest : Obligations.DecodeTakesExactlyOneRequest := by
  intro ws rest i h
  obtain ⟨w0, tl, r, rfl, hhead, hlen, hbuild, rfl⟩ := decode_ok h
  obtain ⟨hr, hmatch, -⟩ := decodeHead_ok hhead
  obtain ⟨j, hj, hstands⟩ := rows_read hr w0 (tl.take r.operands) hmatch (List.length_take_of_le hlen)
  obtain rfl : j = i := Option.some.inj (hj.symm.trans hbuild)
  have hlength := hstands.length
  exact ⟨decode_wellFormed h, w0 :: tl.take r.operands, by simp, hlength, by simp,
    hlength ▸ encode_length_le j, hstands⟩

/-! ## Illegal head words -/

/-- A row reads the operand words of every head word it matches, so only the head word can be illegal (R66). -/
theorem decode_illegal_iff (w0 : Word) (ws : List Word) :
    (∃ why rest, decode (w0 :: ws) = .illegal why rest ∧ rest = ws) ↔ ∃ why, decodeHead w0 = .error why := by
  constructor
  · rintro ⟨why, rest, h, -⟩
    cases hhead : decodeHead w0 with
    | error why => exact ⟨why, rfl⟩
    | ok r =>
      obtain ⟨hr, hmatch, -⟩ := decodeHead_ok hhead
      simp only [decode, hhead] at h
      split at h
      · cases h
      · rename_i hlen
        obtain ⟨i, hbuild, -⟩ := rows_read hr w0 (ws.take r.operands) hmatch (List.length_take_of_le (by omega))
        simp [hbuild] at h
  · rintro ⟨why, h⟩
    exact ⟨why, ws, decode_illegal h ws, rfl⟩

/-- A head word is illegal where no row matches it, or its table id is 5 to 7 (R67). -/
theorem decodeHead_error_iff (w0 : Word) :
    (∃ why, decodeHead w0 = .error why) ↔ (∀ r ∈ rows, r.matchesHead w0 = false) ∨ badTableId w0 = true := by
  have hrow : rowOf w0 = none ↔ ∀ r ∈ rows, r.matchesHead w0 = false := by simp [rowOf]
  rw [← hrow, decodeHead]
  cases rowOf w0 <;> cases badTableId w0 <;> simp

/-- How many `SUB` values the opcode map lists under each opcode, from 0 up (R65). -/
def legalSubs : List Nat :=
  [1, 4, 8, 256, 1, 2, 1, 1, 1, 1, 0, 0, 0, 0, 0, 0, 1, 1, 1, 1, 1, 1, 0, 0, 1, 16, 1, 4, 1, 1, 0, 0,
   1, 1, 1, 0, 0, 0, 0, 0, 2, 256, 1, 1, 256, 2]

/-- The head words a row matches are its opcode with a `SUB` field of `k` bits, and the values
listed for that opcode are those of the field. -/
theorem rows_legalSubs : ∀ r ∈ rows, ∃ k ≤ 8, r.mask = fieldMask k ∧ r.pattern = headWord (opcOf r.pattern) 0
    ∧ legalSubs.getD (opcOf r.pattern).toNat 0 = 2 ^ k := by decide

/-- An opcode that has legal `SUB` values has a row. -/
theorem legalSubs_rows : ∀ opc < 0x2E, legalSubs.getD opc 0 ≠ 0 → ∃ r ∈ rows, (opcOf r.pattern).toNat = opc := by decide

/-- A head word matches a row where its `OPC` is the row's and its `SUB` is one of those of that opcode. -/
theorem Row.matchesHead_iff {r : Row} (hr : r ∈ rows) (w0 : Word) : r.matchesHead w0 = true ↔
    w0.toNat / 256 = (opcOf r.pattern).toNat ∧ w0.toNat % 256 < legalSubs.getD (opcOf r.pattern).toNat 0 := by
  obtain ⟨k, hk, hmask, hpattern, hlegal⟩ := rows_legalSubs r hr
  rw [hlegal, ← and_fieldMask_eq_iff hk, ← hpattern, ← hmask, Row.matchesHead, beq_iff_eq]

/-- A head word matches a row of the map exactly where its `SUB` is one of those of its `OPC`. -/
theorem exists_matchesHead_iff (w0 : Word) :
    (∃ r ∈ rows, r.matchesHead w0 = true) ↔ w0.toNat % 256 < legalSubs.getD (w0.toNat / 256) 0 := by
  constructor
  · rintro ⟨r, hr, hmatch⟩
    obtain ⟨hopc, hsub⟩ := (Row.matchesHead_iff hr w0).mp hmatch
    rwa [hopc]
  · intro hsub
    have hlisted : w0.toNat / 256 < 0x2E := by
      by_contra hge
      rw [List.getD_eq_default _ _ (Nat.le_of_not_lt hge)] at hsub
      exact absurd hsub (Nat.not_lt_zero _)
    obtain ⟨r, hr, hopc⟩ := legalSubs_rows _ hlisted (by omega)
    exact ⟨r, hr, (Row.matchesHead_iff hr w0).mpr ⟨hopc.symm, hopc.symm ▸ hsub⟩⟩

/-- The head words of RUN_TABLE with a table id of 5 to 7, in numbers. -/
theorem badTableId_iff (w0 : Word) : badTableId w0 = true ↔ w0.toNat / 256 = 2 ∧ 5 ≤ w0.toNat % 8 := by
  have hlt := w0.isLt
  have hopc : opcOf w0 = 0x02 ↔ w0.toNat / 256 = 2 := by
    rw [← BitVec.toNat_inj, opcOf, BitVec.extractLsb'_toNat, Nat.shiftRight_eq_div_pow]
    simp
    omega
  rw [badTableId, Bool.and_eq_true, beq_iff_eq, hopc, decide_eq_true_eq, BitVec.extractLsb'_toNat]
  rfl

/-- The reserved encodings of R67: a `SUB` that is none of those of its `OPC`, or a table id of 5 to 7. No opcode from 0x2E on is
listed. -/
theorem reservedHead_iff (w0 : Word) :
    Machine.ReservedHead w0 ↔
      legalSubs.getD (w0.toNat / 256) 0 ≤ w0.toNat % 256 ∨ (w0.toNat / 256 = 2 ∧ 5 ≤ w0.toNat % 256) := by
  have hsub : w0.toNat % 256 < 256 := Nat.mod_lt _ (by decide)
  unfold Machine.ReservedHead
  generalize w0.toNat / 256 = opc, w0.toNat % 256 = sub at *
  rcases Nat.lt_or_ge opc 0x2E with hopc | hopc
  · interval_cases opc <;> simp [legalSubs] <;> omega
  · rw [List.getD_eq_default _ _ hopc]
    simp [hopc]

/-- Settles O4: the head words that match no row, and those with a table id of 5 to 7, are the reserved ones. -/
theorem illegalHeadsAreTheReservedOnes : Obligations.IllegalHeadsAreTheReservedOnes := by
  intro w0 ws
  have hrows : (∀ r ∈ rows, r.matchesHead w0 = false) ↔ legalSubs.getD (w0.toNat / 256) 0 ≤ w0.toNat % 256 := by
    rw [← Nat.not_lt, ← exists_matchesHead_iff]
    simp
  rw [decode_illegal_iff, decodeHead_error_iff, reservedHead_iff, hrows, badTableId_iff]
  by_cases hopc : w0.toNat / 256 = 2
  · have hlegal : legalSubs.getD (w0.toNat / 256) 0 = 8 := by rw [hopc]; rfl
    omega
  · simp [hopc]

end Sys2Proof
end

section
/-!
PROOFS. What a step does with the words that wait; then the statements about accepting a request and about operand words that
arrive later.
-/

namespace Sys2Proof

/-- The decoder is idle only where no word waits. -/
theorem eq_nil_of_decode_idle {ws : List Word} (h : decode ws = .idle) : ws = [] := by
  cases ws with
  | nil => rfl
  | cons w0 ws =>
    simp only [decode] at h
    split at h
    · cases h
    · split at h
      · cases h
      · split at h <;> cases h

end Sys2Proof

namespace Sys2Proof.Machine

/-- A block takes words while it is not busy, and while a request's operand words are still to arrive (R66). -/
theorem accepting_of_busy_or_latched {s : State} (h : s.busy = false ∨ s.latched ≠ []) : s.accepting = true := by
  rcases h with h | h <;> simp [State.accepting, h]

/-- A step runs the decoded request. -/
theorem step_of_decode_ok {s : State} {i : Instr} {rest : List Word} (hheld : s.held = none) (ha : s.accepting = true)
    (hd : decode s.waiting = .ok i rest) : step s = exec i (accept rest s) := by
  simp [step, hheld, ha, hd]

/-- A step with a legal head word and not all its operand words waits for them. -/
theorem step_of_needOperands {s : State} (hheld : s.held = none) (ha : s.accepting = true)
    (hd : decode s.waiting = .needOperands) : step s = .next (awaitOperands s) := by
  simp [step, hheld, ha, hd]

/-- Settles O6: what the statement runs the request from is the state with its words accepted. -/
theorem stepRunsTheDecodedRequest : Obligations.StepRunsTheDecodedRequest :=
  fun _ _ _ hheld ha hd => step_of_decode_ok hheld (accepting_of_busy_or_latched ha) hd

/-- Two blocks that accept the same words and are alike once they have accepted them take the same step. -/
theorem step_congr {s t : State} (hs : s.held = none) (ht : t.held = none) (has : s.accepting = true)
    (hat : t.accepting = true) (hwaiting : t.waiting = s.waiting) (hne : s.waiting ≠ [])
    (haccept : ∀ rest, accept rest t = accept rest s) : step t = step s := by
  have hawait : awaitOperands t = awaitOperands s := by
    show { accept [] t with latched := t.waiting } = { accept [] s with latched := s.waiting }
    rw [haccept, hwaiting]
  simp only [step, hs, ht, has, hat, hwaiting, hawait, haccept, if_true]
  split
  · exact absurd (eq_nil_of_decode_idle ‹_›) hne
  all_goals rfl

/-- Setting bits that are set already changes nothing. -/
theorem setBits_setBits (m v : Word) : setBits m (setBits m v) = setBits m v := by
  have hbit : ∀ a b c : Bool, (((a || b) && c || b) && c) = ((a || b) && c) := by decide
  ext k hk
  simp only [setBits, BitVec.getElem_and, BitVec.getElem_or]
  exact hbit _ _ _

/-- Settles O8: the words the block waits with are those that waited, so it decodes the same words once the rest arrive. -/
theorem operandsMayArriveLater : Obligations.OperandsMayArriveLater := by
  intro s more hheld ha hd
  have hacc := accepting_of_busy_or_latched ha
  refine ⟨awaitOperands s, step_of_needOperands hheld hacc hd, busy_setBusy_bits _, rfl, rfl, rfl, ?_⟩
  have hne : s.waiting ≠ [] := fun h0 => by cases (congrArg decode h0).symm.trans hd
  have hwaiting : (hostIssue more s).waiting = s.waiting ++ more := (List.append_assoc _ _ _).symm
  refine step_congr hheld hheld hacc ?_ ?_ ?_ fun rest => ?_
  · simp [State.accepting, hne]
  · simp [State.waiting]
  · exact fun h0 => hne (List.append_eq_nil_iff.mp (hwaiting.symm.trans h0)).1
  · simp [accept, State.setBusy, hostIssue, awaitOperands, setBits_setBits]

end Sys2Proof.Machine
end

section
/-!
PROOFS. How a request goes on at each of its held events, by the transport's answers to its own events alone; then the statements
about the event that is never answered and about the three ends of a request.
-/

namespace Sys2Proof.Machine

/-! ## The answers to the events of a request -/

/-- Where the block is held if the transport never answers the event (R71, R223); none for an event that awaits no answer. -/
def BusEvent.hold : BusEvent → Option Hold
  | .drain => some .drain
  | .sleep _ => some .sleep
  | .sel | .desel | .cmd _ | .d8 _ | .d16 _ => none

/-- The awaits of a trace are its events that can hold the block (R71). -/
theorem awaitCount_cons (ev : BusEvent) (evs : List BusEvent) :
    awaitCount (ev :: evs) = awaitCount evs + if ev.hold = none then 0 else 1 := by
  cases ev <;> simp [awaitCount, BusEvent.hold]

/-- A held event of a trace is determined by how many come before it. -/
theorem hold_unique {pre pre' post post' : List BusEvent} {ev ev' : BusEvent} (h : ev.hold ≠ none) (h' : ev'.hold ≠ none)
    (heq : pre ++ ev :: post = pre' ++ ev' :: post') (hcount : awaitCount pre = awaitCount pre') : pre = pre' ∧ ev = ev' := by
  induction pre generalizing pre' with
  | nil =>
    cases pre' with
    | nil => exact ⟨rfl, (List.cons.inj heq).1⟩
    | cons a as =>
      obtain ⟨rfl, -⟩ := List.cons.inj heq
      simp [awaitCount_cons, h] at hcount
  | cons b bs ih =>
    cases pre' with
    | nil =>
      obtain ⟨rfl, -⟩ := List.cons.inj heq
      simp [awaitCount_cons, h'] at hcount
    | cons a as =>
      obtain ⟨rfl, htail⟩ := List.cons.inj heq
      rw [awaitCount_cons, awaitCount_cons] at hcount
      obtain ⟨rfl, rfl⟩ := ih htail (Nat.add_right_cancel hcount)
      exact ⟨rfl, rfl⟩

/-- The answers before the first silent one are all `done`. -/
theorem State.SilentAt.answersFor {s : State} {n : Nat} (h : s.SilentAt n) : s.AnswersFor n := by
  intro a ha
  rw [h.1] at ha
  exact List.eq_of_mem_replicate ha

/-- Where a held event's answer is silent, the events of the trace are not all answered. -/
theorem State.SilentAt.not_answersFor_hold {s : State} {pre : List BusEvent} (h : s.SilentAt (awaitCount pre)) {ev : BusEvent}
    (hhold : ev.hold ≠ none) (post : List BusEvent) : ¬ s.AnswersFor (awaitCount (pre ++ ev :: post)) :=
  h.not_answersFor (by rw [awaitCount_append, awaitCount_cons, if_neg hhold]; omega)

/-- There is one first silent answer. -/
theorem State.SilentAt.unique {s : State} {m n : Nat} (hm : s.SilentAt m) (hn : s.SilentAt n) : m = n := by
  rcases Nat.lt_trichotomy m n with hlt | rfl | hlt
  · exact absurd hn.answersFor (hm.not_answersFor hlt)
  · rfl
  · exact absurd hm.answersFor (hn.not_answersFor hlt)

/-! ## The first silent answer -/

/-- From `s`, the request has come to `t` by a TransportFault at the DRAIN behind its events `pre` (R222, R226). -/
structure State.TimedOutAt (s : State) (pre : List BusEvent) (t : State) : Prop where
  trace : t.trace = s.trace ++ pre ++ [.drain, .desel]
  tfault : t.tfault = true
  busy : t.busy = false
  owned : t.owned = false
  ds : t.ds = s.ds
  resp : t.resp = s.resp

/-- From `s`, the request has come to `t`, held for ever at the event `ev` behind its events `pre` (R223). -/
structure State.HeldAt (s : State) (pre : List BusEvent) (ev : BusEvent) (t : State) : Prop where
  held : t.held = ev.hold
  trace : t.trace = s.trace ++ pre ++ [ev]
  busy : t.busy = true
  owned : t.owned = true
  ds : t.ds = s.ds
  resp : t.resp = s.resp
  illegal : t.illegal = s.illegal
  tfault : t.tfault = s.tfault

/-- From `s`, a request with the events `evs` has come to `t` at the first of them whose answer is silent (R222, R223). -/
inductive State.StopsAtSilence (s : State) (evs : List BusEvent) (t : State) : Prop
  | timedOut (pre post : List BusEvent) (hevs : evs = pre ++ .drain :: .desel :: post) (hsilent : s.SilentAt (awaitCount pre))
      (htimeout : s.cfg.drainTimeout ≠ none) (h : s.TimedOutAt pre t)
  | held (pre : List BusEvent) (ev : BusEvent) (post : List BusEvent) (hevs : evs = pre ++ ev :: post)
      (hsilent : s.SilentAt (awaitCount pre)) (hev : (ev = .drain ∧ s.cfg.drainTimeout = none) ∨ ∃ ms, ev = .sleep ms)
      (h : s.HeldAt pre ev t)

/-- DRAIN and SLEEP are the events that can hold the block. -/
theorem hold_ne_none {ev : BusEvent} {p : Prop} (h : (ev = .drain ∧ p) ∨ ∃ ms, ev = .sleep ms) : ev.hold ≠ none := by
  rcases h with ⟨rfl, -⟩ | ⟨ms, rfl⟩ <;> exact nofun

/-- Such a request's events are not all answered. -/
theorem State.StopsAtSilence.not_answersFor {s t : State} {evs : List BusEvent} (h : s.StopsAtSilence evs t) :
    ¬ s.AnswersFor (awaitCount evs) := by
  cases h with
  | timedOut pre post hevs hsilent => exact hevs ▸ hsilent.not_answersFor_hold (ev := .drain) nofun (.desel :: post)
  | held pre ev post hevs hsilent hev => exact hevs ▸ hsilent.not_answersFor_hold (hold_ne_none hev) post

/-- The events of a section before its DRAIN. -/
def Critical.beforeDrain (c : Critical) : List BusEvent := .sel :: c.body ++ (c.settle.map BusEvent.sleep).toList

theorem Critical.events_eq (c : Critical) : c.events = c.beforeDrain ++ [.drain, .desel] := rfl

theorem afterTimeout_timedOutAt (pre : List Critical) (c : Critical) (s : State) :
    s.TimedOutAt (eventsOf pre ++ c.beforeDrain) (afterTimeout c (afterAll pre { s with pendMad := none })) := by
  rw [afterAll_eq]
  exact ⟨by simp [afterTimeout, Critical.events_eq], (tfault_clearBusy_bits _).trans (tfault_setTfault_bits _),
    busy_clearBusy_bits _, rfl, rfl, rfl⟩

theorem heldInDrain_heldAt (pre : List Critical) (c : Critical) (s : State) :
    s.HeldAt (eventsOf pre ++ c.beforeDrain) .drain (heldInDrain c (afterAll pre { s with pendMad := none })) := by
  rw [afterAll_eq]
  exact ⟨rfl, by simp [heldInDrain, Critical.beforeDrain], busy_setBusy_bits _, rfl, rfl, rfl, illegal_setBusy_bits _,
    tfault_setBusy_bits _⟩

theorem heldInSleep_heldAt (pre : List Critical) (c : Critical) (ms : Word) (s : State) :
    s.HeldAt (eventsOf pre ++ .sel :: c.body) (.sleep ms)
      (heldInSleep c ms (afterAll pre { s with pendMad := none })) := by
  rw [afterAll_eq]
  exact ⟨rfl, by simp [heldInSleep], busy_setBusy_bits _, rfl, rfl, rfl, illegal_setBusy_bits _, tfault_setBusy_bits _⟩

/-- A list of sections commits where its own held events are all answered, and stops at the first that is silent. -/
theorem perform_answers {cs : List Critical} (hcs : AllPayload cs) (commit : State → State) (s : State) :
    (s.AnswersFor (awaitCount (eventsOf cs))
      ∧ perform cs commit s = endRequest (commit (afterAll cs { s with pendMad := none })))
    ∨ s.StopsAtSilence (eventsOf cs) (perform cs commit s) := by
  rcases perform_cases cs commit s with ⟨hanswers, h⟩ | ⟨pre, c, post, rfl, h⟩
  · left
    exact ⟨by rwa [awaitCount_eventsOf cs hcs], h⟩
  right
  have hc := hcs c (by simp)
  have hpre : awaitCount (eventsOf pre) = awaitsOf pre := awaitCount_eventsOf pre fun d hd => hcs d (by simp [hd])
  have hdrain : awaitCount (eventsOf pre ++ c.beforeDrain) = awaitsOf pre + (c.awaits - 1) := by
    rw [awaitCount_append, hpre, Critical.beforeDrain, awaitCount_beforeDrain hc]
  rcases h with ⟨hsilent, htimeout, h⟩ | ⟨hsilent, htimeout, h⟩ | ⟨ms, hms, hsilent, h⟩ <;> rw [h]
  · exact .timedOut _ (eventsOf post) (by simp [Critical.events_eq]) (hdrain ▸ hsilent) (Option.isSome_iff_ne_none.mp htimeout)
      (afterTimeout_timedOutAt pre c s)
  · exact .held _ .drain (.desel :: eventsOf post) (by simp [Critical.events_eq]) (hdrain ▸ hsilent) (.inl ⟨rfl, htimeout⟩)
      (heldInDrain_heldAt pre c s)
  · have hsleep : awaitCount (eventsOf pre ++ .sel :: c.body) = awaitsOf pre := by
      rw [awaitCount_append, hpre, show awaitCount (.sel :: c.body) = 0 from awaitCount_payload c.body hc, Nat.add_zero]
    exact .held _ (.sleep ms) (.drain :: .desel :: eventsOf post) (by simp [Critical.events, hms]) (hsleep ▸ hsilent)
      (.inr ⟨ms, rfl⟩) (heldInSleep_heldAt pre c ms s)

/-! ## A request by its own answers -/

/-- Another agent's changes are to the bitmap memory alone (R50), so they do not matter to where a request stops. -/
theorem State.StopsAtSilence.of_settledFor {i : Instr} {s t : State} {evs : List BusEvent}
    (h : (settledFor i s).StopsAtSilence evs t) : s.StopsAtSilence evs t := by
  rcases settledFor_cases i s with hs | ⟨n, hs⟩ <;> rw [hs] at h
  · exact h
  cases h with
  | timedOut pre post hevs hsilent htimeout h => exact .timedOut pre post hevs hsilent htimeout { h with }
  | held pre ev post hevs hsilent hev h => exact .held pre ev post hevs hsilent hev { h with }

/-- Answered sections do not depend on the answers behind theirs, and leave those. -/
theorem afterAll_transport (cs : List Critical) (s : State) :
    afterAll cs { s with pendMad := none } =
      { afterAll cs { s.answered with pendMad := none } with transport := s.transport.drop (awaitsOf cs) } := by
  rw [afterAll_eq, afterAll_eq]
  rfl

/-- A commit does not depend on the transport's answers, nor change them. -/
theorem commitOf_transport (i : Instr) (s t : State) (as : List Answer) :
    commitOf i s { t with transport := as } = { commitOf i s t with transport := as } := by cases i <;> rfl

/-- Every request, by the answers to its own events `evs`: done as with a transport that answers, or stopped at the first silent
one (R71, R222, R223). -/
theorem exec_answers (i : Instr) (s : State) : ∃ t u : State,
    exec i s = .next t ∧ exec i s.answered = .next u ∧ u.trace = s.trace ++ eventsOf (sectionsOf i s)
    ∧ ((s.AnswersFor (awaitCount (eventsOf (sectionsOf i s)))
        ∧ t = { u with transport := s.transport.drop (awaitCount (eventsOf (sectionsOf i s))) })
      ∨ s.StopsAtSilence (eventsOf (sectionsOf i s)) t) := by
  by_cases hw : i.WellFormed
  · have hanswered : (settledFor i s).answered.TransportAnswers := nofun
    have hpayload := sectionsOf_payload i s
    refine ⟨_, _, exec_eq i s hw, exec_eq i s.answered hw, ?_⟩
    rw [sectionsOf_answered, commitOf_answered, settledFor_answered, perform_answered _ _ _ hanswered]
    refine ⟨?_, ?_⟩
    · rw [commitOf_frame, afterAll_eq]
      simp [State.answered]
    · rcases perform_answers hpayload (commitOf i s) (settledFor i s) with ⟨hanswers, h⟩ | h
      · left
        refine ⟨by simpa [State.AnswersFor] using hanswers, ?_⟩
        rw [h, afterAll_transport, awaitCount_eventsOf _ hpayload, ← settledFor_transport i s]
        exact congrArg endRequest (commitOf_transport i s _ _)
      · exact .inr h.of_settledFor
  · obtain ⟨n, rfl, hn⟩ := eq_runTable_of_not_wellFormed hw
    have hsections : sectionsOf (.runTable n) s = [] := dif_neg (Nat.not_lt.mpr hn)
    refine ⟨_, _, exec_runTable_illegal n s hn, exec_runTable_illegal n s.answered hn, ?_⟩
    rw [hsections]
    exact ⟨(List.append_nil _).symm, .inl ⟨s.answersFor_zero, rfl⟩⟩

/-- Settles O24: the request's own answers decide between its three ends. -/
theorem everyRequestComesToOneOfThreeEnds : Obligations.EveryRequestComesToOneOfThreeEnds := by
  intro i s
  obtain ⟨t, u, ht, hu, htrace, ⟨hanswers, hdone⟩ | hstop⟩ := exec_answers i s
  · exact ⟨t, u, _, ht, hu, htrace, fun _ => hdone, .inl hanswers⟩
  · refine ⟨t, u, _, ht, hu, htrace, fun hanswers => absurd hanswers hstop.not_answersFor, .inr ?_⟩
    cases hstop with
    | timedOut pre post hevs hsilent htimeout h =>
      exact .inl ⟨htimeout, h.tfault, h.busy, h.owned, h.ds, h.resp, pre, post, by simpa using hevs, hsilent, h.trace⟩
    | held pre ev post hevs hsilent hev h =>
      exact .inr ⟨h.held ▸ hold_ne_none hev, h.busy, h.owned, h.ds, h.resp, pre, ev, post, by simpa using hevs, hsilent, hev,
        h.trace⟩

/-- Settles O23: the event of the statement is the one the request stops at, the first whose answer is silent. -/
theorem unansweredAwaitHoldsTheBlock : Obligations.UnansweredAwaitHoldsTheBlock := by
  intro i s u pre post ev hu htrace hsilent hev
  have hhold := hold_ne_none hev
  obtain ⟨t, u', ht, hu', htrace', hcases⟩ := exec_answers i s
  obtain rfl : u' = u := Host.Outcome.next.inj (hu'.symm.trans hu)
  have hevs : eventsOf (sectionsOf i s) = pre ++ ev :: post := by
    rw [htrace, List.append_assoc, List.append_assoc] at htrace'
    simpa using (List.append_cancel_left htrace').symm
  have hstop : s.StopsAtSilence (pre ++ ev :: post) t := by
    rw [hevs] at hcases
    exact hcases.resolve_left fun h => hsilent.not_answersFor_hold hhold post h.1
  cases hstop with
  | timedOut pre' post' hevs' hsilent' htimeout h =>
    obtain ⟨rfl, rfl⟩ := hold_unique hhold (ev' := .drain) nofun hevs' (hsilent.unique hsilent')
    obtain ⟨-, hnone⟩ | ⟨ms, hms⟩ := hev
    · exact absurd hnone htimeout
    · cases hms
  | held pre' ev' post' hevs' hsilent' hev' h =>
    obtain ⟨rfl, rfl⟩ := hold_unique hhold (hold_ne_none hev') hevs' (hsilent.unique hsilent')
    obtain ⟨-, hdrain, hsleep⟩ := idleStaysAndHeldIsStuck t
    refine ⟨t, ht, h.trace, h.busy, h.owned, h.ds, h.resp, h.illegal, h.tfault, ?_, ?_⟩
    · rintro rfl
      exact hdrain h.held
    · rintro ⟨ms, rfl⟩
      exact hsleep h.held

end Sys2Proof.Machine
end

section
/-!
PROOFS. RUN_TABLE: its critical sections are the command steps of its table.
-/

namespace Sys2Proof.Machine

theorem wellFormed_runTable (t : Fin 5) : (Instr.runTable (BitVec.ofNat 3 t.val)).WellFormed := by revert t; decide

/-- RUN_TABLE's head words decode to it (R61, R65). -/
theorem decode_runTable (t : Fin 5) (rest : List Word) :
    decode (BitVec.ofNat 16 (0x0200 + t.val) :: rest) = .ok (.runTable (BitVec.ofNat 3 t.val)) rest := by
  have hhead : BitVec.ofNat 16 (0x0200 + t.val) = headWord 0x02 ((BitVec.ofNat 3 t.val).setWidth 8) := by revert t; decide
  exact decode_of_eq_encode (wellFormed_runTable t) (congrArg (· :: rest) hhead)

/-- RUN_TABLE's critical sections are the command steps of its table (R82). -/
theorem sectionsOf_runTable (t : Fin 5) (s : State) :
    sectionsOf (.runTable (BitVec.ofNat 3 t.val)) s
      = (s.cfg.initTables.get t).map fun st => commandStep s.cfg st.opcode st.args st.delay := by
  have ht : (BitVec.ofNat 3 t.val).toNat = t.val := Nat.mod_eq_of_lt (by omega)
  have hlt : (BitVec.ofNat 3 t.val).toNat < 5 := ht.trans_lt t.isLt
  exact (dif_pos hlt).trans (congrArg (tableSteps s.cfg) (Fin.ext ht))

/-- Settles O32: RUN_TABLE's events and the madctl it leaves pending are those of its table's command steps. -/
theorem runTableReplaysTheTable : Obligations.RunTableReplaysTheTable := by
  intro s t rest h
  refine ⟨decode_runTable t rest, ?_⟩
  rw [exec_eq _ _ (wellFormed_runTable t)]
  simp only [commitOf, settledFor]
  rw [perform_answered_eq _ _ _ h (sectionsOf_payload _ _), sectionsOf_runTable, lastSnoop_commandSteps, commandSteps_events,
    Option.or_none]
  rfl

end Sys2Proof.Machine
end

section
/-!
PROOFS. The packed init-table image (R88): reading a delay, a step, a number of steps and a table gives back a value exactly
where the bytes are the packed form of that value.
-/

namespace Sys2Proof.Machine

/-- Byte `k` is its argument count and its delay flag (R88). -/
theorem eq_packFlags_iff {st : CmdStep} (hn : st.args.length ≤ 127) (k : Byte) :
    k = packFlags st ↔ (k.setWidth 7).toNat = st.args.length ∧ k.getLsbD 7 = st.delay.isSome := by
  have hflag : k.getLsbD 7 = decide (128 ≤ k.toNat) := by revert k; decide
  have hk := k.isLt
  rw [packFlags, ← BitVec.toNat_inj, hflag, BitVec.toNat_setWidth, BitVec.toNat_ofNat]
  cases st.delay <;> simp <;> omega

theorem packable_iff (st : CmdStep) :
    packable st = true ↔ st.args.length ≤ 127 ∧ packableDelay st.delay = true := by
  simp [packable]

theorem packableDelay_iff (delay : Option Word) : packableDelay delay = true ↔ ∀ d, delay = some d → d.toNat ≤ 255 := by
  cases delay <;> simp [packableDelay]

/-- A delay is read back exactly from its packed form. -/
theorem unpackDelay_eq_some_iff (present : Bool) (bs : List Byte) (delay : Option Word) (rest : List Byte) :
    unpackDelay present bs = some (delay, rest)
      ↔ delay.isSome = present ∧ packableDelay delay = true
        ∧ bs = (delay.map fun d => d.setWidth 8).toList ++ rest := by
  cases present with
  | false => cases delay <;> simp [unpackDelay, packableDelay]
  | true =>
    cases bs with
    | nil => cases delay <;> simp [unpackDelay]
    | cons b bs =>
      have hwiden : ∀ d : Word, b.setWidth 16 = d ↔ d.toNat ≤ 255 ∧ b = d.setWidth 8 := by
        intro d
        bv_omega
      cases delay with
      | none => simp [unpackDelay]
      | some d => simp [unpackDelay, packableDelay, hwiden, and_assoc]

/-- A packed step with bytes behind it reads back as the step and those bytes. -/
theorem unpackStep_packStep {st : CmdStep} (h : packable st = true) (rest : List Byte) :
    unpackStep (packStep st ++ rest) = some (st, rest) := by
  obtain ⟨hn, hdelay⟩ := (packable_iff st).mp h
  obtain ⟨hcount, hflag⟩ := (eq_packFlags_iff hn (packFlags st)).mp rfl
  have hread := (unpackDelay_eq_some_iff _ _ _ rest).mpr ⟨rfl, hdelay, rfl⟩
  simp only [packStep, List.cons_append, unpackStep, hcount, hflag, List.append_assoc, List.drop_left, List.take_left, hread]
  exact if_neg (by simp)

/-- Bytes that a step is read from are its packed form and the bytes after it. -/
theorem eq_packStep_of_unpackStep {bs rest : List Byte} {st : CmdStep} (h : unpackStep bs = some (st, rest)) :
    packable st = true ∧ bs = packStep st ++ rest := by
  simp only [unpackStep] at h
  split at h
  case h_2 => cases h
  case h_1 op k bs =>
    split at h
    · cases h
    next hlen =>
      obtain ⟨⟨delay, rest⟩, hread, ⟨⟩⟩ := Option.map_eq_some_iff.mp h
      obtain ⟨hpresent, hdelay, hrest⟩ := (unpackDelay_eq_some_iff _ _ _ _).mp hread
      have hcount : (bs.take (k.setWidth 7).toNat).length = (k.setWidth 7).toNat :=
        List.length_take_of_le (Nat.not_lt.mp hlen)
      have hn : (bs.take (k.setWidth 7).toNat).length ≤ 127 := hcount.trans_le (Nat.le_of_lt_succ (k.setWidth 7).isLt)
      have hk := (eq_packFlags_iff (st := ⟨op, _, delay⟩) hn k).mpr ⟨hcount.symm, hpresent.symm⟩
      refine ⟨(packable_iff _).mpr ⟨hn, hdelay⟩, ?_⟩
      rw [packStep, ← hk, List.cons_append, List.cons_append, List.append_assoc, ← hrest]
      exact congrArg (op :: k :: ·) (List.take_append_drop _ bs).symm

/-- A step is read exactly from its packed form. -/
theorem unpackStep_eq_some_iff (bs : List Byte) (st : CmdStep) (rest : List Byte) :
    unpackStep bs = some (st, rest) ↔ packable st = true ∧ bs = packStep st ++ rest :=
  ⟨eq_packStep_of_unpackStep, fun ⟨hpack, hbytes⟩ => hbytes ▸ unpackStep_packStep hpack rest⟩

/-- Steps are read exactly from their packed forms, one behind another. -/
theorem unpackSteps_eq_some_iff (n : Nat) (bs : List Byte) (steps : List CmdStep) (rest : List Byte) :
    unpackSteps n bs = some (steps, rest)
      ↔ steps.length = n ∧ steps.all packable = true ∧ bs = steps.flatMap packStep ++ rest := by
  induction n generalizing bs steps with
  | zero => cases steps <;> simp [unpackSteps]
  | succ n ih =>
    cases steps with
    | nil => simp [unpackSteps, Option.bind_eq_some_iff]
    | cons st steps =>
      simp [unpackSteps, Option.bind_eq_some_iff, unpackStep_eq_some_iff, ih, and_assoc, and_left_comm, and_comm]

/-- A table is read from an image exactly where it is the table's image. -/
theorem unpackTable_eq_some_iff (img : List Byte) (t : List CmdStep) : unpackTable img = some t ↔ packTable t = some img := by
  cases img with
  | nil => simp [unpackTable, packTable]
  | cons n bs =>
    have hread : unpackTable (n :: bs) = some t ↔ t.length = n.toNat ∧ t.all packable = true ∧ bs = t.flatMap packStep := by
      simp [unpackTable, Option.bind_eq_some_iff, unpackSteps_eq_some_iff]
    have hcount : t.length = n.toNat ↔ t.length ≤ 255 ∧ BitVec.ofNat 8 t.length = n := by
      rw [← BitVec.toNat_inj, BitVec.toNat_ofNat]
      omega
    rw [hread, hcount, packTable, Option.ite_none_right_eq_some, Option.some_inj, List.cons_eq_cons, eq_comm (a := bs)]
    tauto

/-- Settles O5: a table is read from an image exactly where it is the table's image. -/
theorem packedTableRoundTrip : Obligations.PackedTableRoundTrip := by
  intro t img
  refine ⟨?_, (unpackTable_eq_some_iff img t).mpr, (unpackTable_eq_some_iff img t).mp⟩
  simp [packTable, packable_iff, packableDelay_iff]

end Sys2Proof.Machine
end

section
/-!
PROOFS. The R/B swap in numbers, and the statement about it.
-/

namespace Sys2Proof.Machine

/-- Bits put above other bits, as numbers. -/
theorem toNat_append_eq_add {m n : Nat} (a : BitVec m) (b : BitVec n) : (a ++ b).toNat = a.toNat * 2 ^ n + b.toNat := by
  rw [BitVec.toNat_append, ← Nat.shiftLeft_add_eq_or_of_lt b.isLt, Nat.shiftLeft_eq]

/-- The swapped word from its fields: blue above, then green, then red (R106). -/
theorem toNat_swap565 (c : Word) :
    (swap565 c).toNat = c.toNat % 32 * 2048 + c.toNat / 32 % 64 * 32 + c.toNat / 2048 := by
  have hc := c.isLt
  simp only [swap565, toNat_append_eq_add, BitVec.extractLsb'_toNat, Nat.shiftRight_eq_div_pow]
  omega

theorem swap565_swap565 (c : Word) : swap565 (swap565 c) = c := by
  have hc := c.isLt
  have hswap := toNat_swap565 c
  have hblue : (swap565 c).toNat % 32 = c.toNat / 2048 := by omega
  have hgreen : (swap565 c).toNat / 32 % 64 = c.toNat / 32 % 64 := by omega
  have hred : (swap565 c).toNat / 2048 = c.toNat % 32 := by omega
  refine BitVec.eq_of_toNat_eq ?_
  rw [toNat_swap565]
  omega

/-- Settles O34: the swapped word in numbers, and its swap. -/
theorem swapExchangesRedAndBlue : Obligations.SwapExchangesRedAndBlue := fun c => ⟨toNat_swap565 c, swap565_swap565 c⟩

end Sys2Proof.Machine
end

section
/-!
PROOFS. What a run of a line sends: one burst on the screen or nothing. Then the sections of every drawing request are window bursts
on the screen, or a whole glyph cell on the screen; and the statement about what drawing requests send.
-/

namespace Sys2Proof.Machine

/-! ## Window bursts on the screen -/

theorem spanLen_pos {a b : Int} (h : a ≤ b) : 0 < spanLen a b := by unfold spanLen; omega

theorem spanLen_self (a : Int) : spanLen a a = 1 := by simp [spanLen]

/-- A window burst whose corners are on the screen, with at least one word and no more than its window covers (R100, R101). -/
theorem windowBurst_isBurst {s : State} {w : Window} {words : List Word} (h0 : s.OnScreen (w.x0, w.y0))
    (h1 : s.OnScreen (w.x1, w.y1)) (hx : w.x0 ≤ w.x1) (hy : w.y0 ≤ w.y1) (hpos : 0 < words.length)
    (hlen : words.length ≤ w.area) : s.IsBurst (windowBurst s w words).events := by
  obtain ⟨hx0, -, hy0, -⟩ := h0
  obtain ⟨-, hx1, -, hy1⟩ := h1
  have harea : ((w.area : Nat) : Int) = (w.x1 - w.x0 + 1) * (w.y1 - w.y0 + 1) := by
    rw [Window.area, spanLen, spanLen, Int.natCast_mul, Int.toNat_of_nonneg (by omega), Int.toNat_of_nonneg (by omega)]
  exact ⟨w.x0, w.y0, w.x1, w.y1, words, hx0, hx, hx1, hy0, hy, hy1, List.ne_nil_of_length_pos hpos,
    harea ▸ Int.ofNat_le.mpr hlen, windowBurst_events s w.x0 w.y0 w.x1 w.y1 words⟩

/-- A clipped rectangle is not empty and lies within the screen (R102). -/
theorem clip_eq_some {s : State} {x y w h : Int} {win : Window} (hclip : clip s x y w h = some win) :
    s.OnScreen (win.x0, win.y0) ∧ s.OnScreen (win.x1, win.y1) ∧ win.x0 ≤ win.x1 ∧ win.y0 ≤ win.y1 := by
  rw [clip_eq, Option.ite_none_right_eq_some] at hclip
  obtain ⟨hon, hwin⟩ := hclip
  obtain rfl := Option.some.inj hwin
  simp only [State.OnScreen]
  omega

/-- A line's point (major, minor) as column and row: the coordinates change places in the steep case (R126). -/
def axisPoint (steep : Bool) (q : Int × Int) : Int × Int := if steep then (q.2, q.1) else q

/-- What a run of a line sends is one burst of the run's points `a..b` on the screen, in a window that goes on to `e` (R127). -/
theorem mem_lineRun {s : State} {steep : Bool} {xEnd : Int} {r : Run} {w : Word} {c : Critical} (hend : r.b ≤ xEnd)
    (h : c ∈ lineRun s steep xEnd r w) :
    ∃ a b e : Int, r.a ≤ a ∧ a ≤ b ∧ b ≤ r.b ∧ b ≤ e
      ∧ s.OnScreen (axisPoint steep (a, r.m)) ∧ s.OnScreen (axisPoint steep (e, r.m))
      ∧ c = windowBurst s ⟨(axisPoint steep (a, r.m)).1, (axisPoint steep (a, r.m)).2, (axisPoint steep (e, r.m)).1,
          (axisPoint steep (e, r.m)).2⟩ (List.replicate (spanLen a b) w) := by
  unfold lineRun screenW screenH at h
  cases steep <;> simp only [if_true, Bool.false_eq_true, if_false] at h
  all_goals
    split at h
    · cases h
    · split at h
      · cases h
      · refine ⟨_, _, _, le_max_left _ _, not_lt.mp ‹_›, min_le_left _ _, min_le_min_right _ hend, ?_, ?_,
          List.mem_singleton.mp h⟩
        all_goals
          simp only [State.OnScreen, axisPoint, if_true, Bool.false_eq_true, if_false]
          omega

/-! ## The sections of a drawing request -/

/-- Every section of the list is a window burst that meets the precondition of R100. -/
def AllBursts (s : State) (cs : List Critical) : Prop := ∀ c ∈ cs, s.IsBurst c.events

section
variable (s : State)

@[simp] theorem allBursts_nil : AllBursts s [] := List.forall_mem_nil _

@[simp] theorem allBursts_append (as bs : List Critical) : AllBursts s (as ++ bs) ↔ AllBursts s as ∧ AllBursts s bs :=
  List.forall_mem_append

@[simp] theorem allBursts_flatMap {α : Type} (l : List α) (f : α → List Critical) :
    AllBursts s (l.flatMap f) ↔ ∀ a ∈ l, AllBursts s (f a) :=
  List.forall_mem_flatMap

@[simp] theorem allBursts_ite (p : Prop) [Decidable p] (as bs : List Critical) :
    AllBursts s (if p then as else bs) ↔ (p → AllBursts s as) ∧ (¬p → AllBursts s bs) := by
  split <;> simp_all

@[simp] theorem allBursts_drawIf (b : Bool) (cs : List Critical) :
    AllBursts s (drawIf b cs) ↔ (b = true → AllBursts s cs) := by
  simp [drawIf]

theorem allBursts_singleton {c : Critical} (h : s.IsBurst c.events) : AllBursts s [c] := List.forall_mem_singleton.mpr h

/-- PIXEL sends one word into its own window (R120). -/
@[simp] theorem pixel_bursts (x y : Int) (c : Word) : AllBursts s (pixel s x y c) := by
  unfold pixel
  split
  · have hon : s.OnScreen (x, y) := (onScreen_iff s x y).mp ‹_›
    refine allBursts_singleton s (windowBurst_isBurst hon hon le_rfl le_rfl Nat.one_pos ?_)
    simp [Window.area, spanLen_self]
  · exact allBursts_nil s

/-- SOLID fills its clipped rectangle (R103). -/
@[simp] theorem solid_bursts (x y w h : Int) (c : Word) : AllBursts s (solid s x y w h c) := by
  unfold solid
  split
  · exact allBursts_nil s
  · rename_i win hclip
    obtain ⟨h0, h1, hx, hy⟩ := clip_eq_some hclip
    have hpos : 0 < win.area := Nat.mul_pos (spanLen_pos hx) (spanLen_pos hy)
    exact allBursts_singleton s (windowBurst_isBurst h0 h1 hx hy (by simpa using hpos) (by simp))

@[simp] theorem hline_bursts (x y w : Int) (c : Word) : AllBursts s (hline s x y w c) := solid_bursts _ _ _ _ _ _
@[simp] theorem vline_bursts (x y h : Int) (c : Word) : AllBursts s (vline s x y h c) := solid_bursts _ _ _ _ _ _
@[simp] theorem fillRect_bursts (x y w h : Int) (c : Word) : AllBursts s (fillRect s x y w h c) := solid_bursts _ _ _ _ _ _

/-- A run that ends with its line or before sends no more words than its strip covers (R104, R127). -/
theorem lineRun_bursts {r : Run} {xEnd : Int} (hend : r.b ≤ xEnd) (steep : Bool) (w : Word) :
    AllBursts s (lineRun s steep xEnd r w) := by
  intro c hc
  obtain ⟨a, b, e, -, hab, -, hbe, ha, he, rfl⟩ := mem_lineRun hend hc
  have hlen : spanLen a b ≤ spanLen a e := by unfold spanLen; omega
  refine windowBurst_isBurst ha he ?_ ?_ (by simpa using spanLen_pos hab) ?_
  all_goals cases steep <;> simp [axisPoint, Window.area, spanLen_self, hlen, hab.trans hbe]

@[simp] theorem line_bursts (x0 y0 x1 y1 : Int) (c : Word) : AllBursts s (line s x0 y0 x1 y1 c) := by
  obtain ⟨-, hends⟩ := runsOf_linePixels x0 y0 x1 y1
  exact (allBursts_flatMap s _ _).mpr fun r hr => lineRun_bursts s (hends r hr).2 _ _

@[simp] theorem circleHelper_bursts (x0 y0 r : Int) (m : BitVec 4) (c : Word) :
    AllBursts s (circleHelper s x0 y0 r m c) := by
  simp [circleHelper, circleHelperStep]

@[simp] theorem fillCircleHelper_bursts (x0 y0 r : Int) (m : BitVec 2) (e : Int) (c : Word) :
    AllBursts s (fillCircleHelper s x0 y0 r m e c) := by
  simp [fillCircleHelper, fillHelperStep]

theorem scanEdges_bursts (c : Word) (xa dxa dya xb dxb dyb : Int) (n : Nat) (y sa sb : Int) :
    AllBursts s (scanEdges s c xa dxa dya xb dxb dyb n y sa sb) := by
  induction n generalizing y sa sb with
  | zero => exact allBursts_nil s
  | succ n ih => simp [scanEdges, scanSpan, ih]

theorem glyphGeneral_bursts (x y : Int) (fg bg : Word) (sc : Byte) (cols : List Byte) :
    AllBursts s (glyphGeneral s x y fg bg sc cols) := by
  simp [glyphGeneral, dot]

/-- A request that draws by window bursts alone sends bursts on the screen alone. -/
theorem sectionsOf_bursts {i : Instr} (h : drawsBursts i = true) : AllBursts s (sectionsOf i s) := by
  cases i
  case pixel => exact pixel_bursts _ _ _ _
  case hline => exact hline_bursts _ _ _ _ _
  case vline => exact vline_bursts _ _ _ _ _
  case fillRect => exact fillRect_bursts _ _ _ _ _ _
  case rect => simp [sectionsOf, rect]
  case line => exact line_bursts _ _ _ _ _ _
  case circle => simp [sectionsOf, circle, circleStep]
  case circleHelper => exact circleHelper_bursts _ _ _ _ _ _
  case fillCircle => simp [sectionsOf, fillCircle]
  case fillCircleHelper => exact fillCircleHelper_bursts _ _ _ _ _ _ _
  case roundRect => simp [sectionsOf, roundRect]
  case fillRoundRect => simp [sectionsOf, fillRoundRect]
  case triangle => simp [sectionsOf, triangle]
  case fillTriangle => simp [sectionsOf, fillTriangle, fillSorted, scanEdges_bursts]
  case bitmap => simp [sectionsOf, bitmapBlit]
  case drawChar g x y fg bg sc code =>
    obtain rfl : g = true := h
    simp [sectionsOf, drawChar, fastOk, glyphGeneral_bursts]
  all_goals cases h

/-- Column `i` of the cell is the font's column, and the blank spacer behind the font's columns (R180). -/
theorem cellColumn_cellColumns (code : Byte) (i : Nat) : cellColumn (cellColumns s.cfg code) i = glyphColumn s code i := by
  change (fontRead s.cfg code ++ [0x00]).getD i 0x00 = (fontRead s.cfg code).getD i 0x00
  rcases lt_or_ge i (fontRead s.cfg code).length with hi | hi
  · exact List.getD_append _ _ _ _ hi
  · rw [List.getD_append_right _ _ _ _ hi, List.getD_eq_default _ _ hi]
    cases i - (fontRead s.cfg code).length <;> rfl

/-- Pixel `n` of a cell in column-major order (R182). -/
theorem cellBit_cellColumns (code : Byte) (n : Nat) :
    cellBit (cellColumns s.cfg code) (n / 8) (n % 8) = glyphBit s code n :=
  congrArg (·.getLsbD (n % 8)) (cellColumn_cellColumns s code (n / 8))

/-- The 48 words of the fast path, counted in column-major order (R182). -/
theorem fastWords_cellColumns (fg bg : Word) (code : Byte) :
    fastWords s fg bg (cellColumns s.cfg code)
      = (List.range 48).map fun n : Nat => plainWord s (if glyphBit s code n then fg else bg) := by
  have horder : cellOrder = (List.range 48).map fun n : Nat => (n / 8, n % 8) := by decide
  simp only [fastWords, horder, List.map_map, Function.comp_def, colw_plain, cellBit_cellColumns]

/-- The events of the fast path are those the spec lists (R182). -/
theorem glyphFast_events (x y : Int) (fg bg : Word) (code : Byte) :
    (glyphFast s x y fg bg (cellColumns s.cfg code)).events = fastEvents s x y fg bg code := by
  simp [Critical.events, glyphFast, fastEvents, fastWords_cellColumns, setWindow, sentCol, sentRow]

/-- A character is drawn by bursts on the screen, or as one whole cell on the screen (R181). -/
theorem drawChar_bursts_or_glyph (x y : Int) (fg bg : Word) (sraw code : Byte) (g : Bool) :
    ∀ c ∈ drawChar s x y fg bg sraw code g, s.IsBurst c.events ∨ s.IsGlyph c.events := by
  simp only [drawChar]
  split
  · rename_i hfast
    simp only [fastOk, Bool.and_eq_true, decide_eq_true_eq] at hfast
    obtain ⟨⟨⟨⟨⟨⟨-, hcolors⟩, -⟩, hx⟩, hxw⟩, hy⟩, hyh⟩ := hfast
    exact List.forall_mem_singleton.mpr (.inr ⟨x, y, fg, bg, code, hx, hxw, hy, hyh, hcolors, glyphFast_events s _ _ _ _ _⟩)
  · exact fun c hc => .inl (glyphGeneral_bursts s _ _ _ _ _ _ c hc)

/-- WRITE_CHAR draws a character or nothing (R185). -/
theorem textSections_bursts_or_glyph (code : Byte) :
    ∀ c ∈ textSections s code, s.IsBurst c.events ∨ s.IsGlyph c.events := by
  unfold textSections
  split
  · exact drawChar_bursts_or_glyph s _ _ _ _ _ _ _
  · exact List.forall_mem_nil _

end

/-! ## The statement about what drawing requests send -/

/-- The events a well-formed request adds to the trace, its awaits all answered. -/
theorem exec_answered_trace {i : Instr} {s t : State} (h : s.TransportAnswers) (hw : i.WellFormed) (he : exec i s = .next t) :
    t.trace = s.trace ++ eventsOf (sectionsOf i s) := by
  rw [exec_eq i s hw] at he
  obtain rfl := Host.Outcome.next.inj he
  rw [perform_answered _ _ _ (by simpa [State.TransportAnswers] using h), commitOf_frame, afterAll_eq]
  exact congrArg (· ++ _) (settledFor_trace i s)

/-- Settles O56: the parts are the events of the request's critical sections. -/
theorem drawingStaysOnScreen : Obligations.DrawingStaysOnScreen := by
  intro i s t hanswers he hkind
  have hw : i.WellFormed := by
    cases i
    case runTable n => simp [drawsBursts] at hkind
    all_goals rfl
  have hparts : ∀ c ∈ sectionsOf i s, s.IsBurst c.events ∨ s.IsGlyph c.events := by
    obtain hbursts | ⟨g, x, y, fg, bg, sc, code, rfl⟩ | ⟨code, rfl⟩ := hkind
    · exact fun c hc => .inl (sectionsOf_bursts s hbursts c hc)
    · exact drawChar_bursts_or_glyph s _ _ _ _ _ _ _
    · exact textSections_bursts_or_glyph s code
  exact ⟨(sectionsOf i s).map Critical.events, exec_answered_trace hanswers hw he, List.forall_mem_map.mpr hparts,
    fun hbursts => List.forall_mem_map.mpr (sectionsOf_bursts s hbursts)⟩

end Sys2Proof.Machine
end

section
/-!
PROOFS. FILL_TRIANGLE in closed form: its sorted vertices, the crossings its loops count up, one span a scanline. Then what draws
nothing on the screen sends nothing, and the statement about lines and filled triangles off the screen.
-/

namespace Sys2Proof.Machine

/-! ## The sorted vertices -/

/-- One compare-exchange puts the lesser row first and keeps both vertices (R161). -/
theorem orderByY_spec (p q : Vertex) :
    (orderByY p q).1.y = min p.y q.y ∧ (orderByY p q).2.y = max p.y q.y
      ∧ [(orderByY p q).1, (orderByY p q).2].Perm [p, q] := by
  unfold orderByY
  split
  · exact ⟨by simp only; omega, by simp only; omega, .swap _ _ _⟩
  · exact ⟨by simp only; omega, by simp only; omega, .refl _⟩

/-- The sort of FILL_TRIANGLE (R161): ascending in y, and a rearrangement. -/
theorem sortByY_spec {p q r a b c : Vertex} (h : sortByY p q r = (a, b, c)) :
    a.y ≤ b.y ∧ b.y ≤ c.y ∧ [a, b, c].Perm [p, q, r] := by
  simp only [sortByY, Prod.mk.injEq] at h
  obtain ⟨rfl, rfl, rfl⟩ := h
  obtain ⟨hmin, hmax, hperm⟩ := orderByY_spec p q
  obtain ⟨hmin', hmax', hperm'⟩ := orderByY_spec (orderByY p q).2 r
  obtain ⟨hmin'', hmax'', hperm''⟩ := orderByY_spec (orderByY p q).1 (orderByY (orderByY p q).2 r).1
  refine ⟨by omega, by omega, ?_⟩
  exact (hperm''.append_right [_]).trans ((hperm'.cons _).trans (hperm.append_right [r]))

/-- The sorted vertices lie where the three vertices lie. -/
theorem sortByY_box {x0 y0 x1 y1 x2 y2 : Int} {p0 p1 p2 : Vertex}
    (h : sortByY ⟨x0, y0⟩ ⟨x1, y1⟩ ⟨x2, y2⟩ = (p0, p1, p2)) {v : Vertex} (hv : v ∈ [p0, p1, p2]) :
    min x0 (min x1 x2) ≤ v.x ∧ v.x ≤ max x0 (max x1 x2) ∧ min y0 (min y1 y2) ≤ v.y ∧ v.y ≤ max y0 (max y1 y2) := by
  obtain ⟨-, -, hperm⟩ := sortByY_spec h
  have hmem := hperm.mem_iff.mp hv
  simp only [List.mem_cons, List.not_mem_nil, or_false] at hmem
  rcases hmem with rfl | rfl | rfl <;> simp only <;> omega

/-! ## The crossings -/

/-- The crossing of a scanline between an edge's ends lies between the columns of the ends (R162). -/
theorem crossing_between {p q : Vertex} {y : Int} (h0 : p.y ≤ y) (h1 : y ≤ q.y) :
    min p.x q.x ≤ crossing p q y ∧ crossing p q y ≤ max p.x q.x := by
  unfold crossing
  rcases h0.eq_or_lt with rfl | hlt
  · simp
  have hd : 0 < q.y - p.y := by omega
  have hk : y - p.y ≤ q.y - p.y := by omega
  have hend : ((q.y - p.y) * (q.x - p.x)).tdiv (q.y - p.y) = q.x - p.x := Int.mul_tdiv_cancel_left _ hd.ne'
  rcases le_total 0 (q.x - p.x) with hx | hx
  · have hleft := Int.tdiv_nonneg (mul_nonneg (sub_nonneg.mpr h0) hx) hd.le
    have hright := Int.tdiv_le_tdiv hd (mul_le_mul_of_nonneg_right hk hx)
    omega
  · have hleft := Int.tdiv_le_tdiv hd (mul_le_mul_of_nonpos_right hk hx)
    have hright := Int.tdiv_le_tdiv hd (mul_nonpos_of_nonneg_of_nonpos (sub_nonneg.mpr h0) hx)
    rw [Int.zero_tdiv] at hright
    omega

/-- The column of the short edges lies between the columns of the vertices (R162). -/
theorem shortEdge_between {p0 p1 p2 : Vertex} {y : Int} (h0 : p0.y ≤ y) (h2 : y ≤ p2.y) :
    min p0.x (min p1.x p2.x) ≤ shortEdge p0 p1 p2 y ∧ shortEdge p0 p1 p2 y ≤ max p0.x (max p1.x p2.x) := by
  unfold shortEdge
  split
  · have := crossing_between (p := p0) (q := p1) (y := y) h0 (by omega)
    omega
  · have := crossing_between (p := p1) (q := p2) (y := y) (by omega) h2
    omega

/-! ## The filled triangle, one span a scanline -/

theorem intRange_append {a b c : Int} (hab : a ≤ b) (hbc : b ≤ c + 1) : intRange a (b - 1) ++ intRange b c = intRange a c := by
  induction a using intRange_induction (b := b - 1) with
  | empty a h =>
    obtain rfl : a = b := by omega
    rw [intRange_of_lt h, List.nil_append]
  | cons a h ih => rw [intRange_cons h, List.cons_append, ih (by omega), intRange_cons (show a ≤ c by omega)]

/-- A loop of FILL_TRIANGLE spans the crossings of its two edges, from a scanline where its accumulators hold what they count up
to from the edges' tops (R161, R162). -/
theorem scanEdges_eq (s : State) (c : Word) (p q u v : Vertex) (b y : Int) :
    scanEdges s c p.x (q.x - p.x) (q.y - p.y) u.x (v.x - u.x) (v.y - u.y) (spanLen y b) y ((y - p.y) * (q.x - p.x))
        ((y - u.y) * (v.x - u.x))
      = (intRange y b).flatMap fun y => scanSpan s (crossing p q y) (crossing u v y) y c := by
  induction y using intRange_induction (b := b) with
  | empty y h =>
    rw [intRange_of_lt h, show spanLen y b = 0 by unfold spanLen; omega]
    rfl
  | cons y h ih =>
    have hnext : ∀ a d : Int, (y - a) * d + d = (y + 1 - a) * d := fun a d => by ring
    rw [intRange_cons h, List.flatMap_cons, show spanLen y b = spanLen (y + 1) b + 1 by unfold spanLen; omega, scanEdges,
      hnext, hnext, ih]
    rfl

/-- FILL_TRIANGLE's two loops together: one span a scanline, from the column of the short edges to the column of the long edge. -/
theorem fillSorted_eq (s : State) {p0 p1 p2 : Vertex} (h01 : p0.y ≤ p1.y) (h12 : p1.y ≤ p2.y) (c : Word) :
    fillSorted s p0 p1 p2 c
      = (intRange p0.y p2.y).flatMap fun y => scanSpan s (shortEdge p0 p1 p2 y) (crossing p0 p2 y) y c := by
  simp only [fillSorted]
  generalize hlast : (if p1.y = p2.y then p1.y else p1.y - 1) = last
  have hmid : p0.y + (spanLen p0.y last : Int) = last + 1 := by unfold spanLen; omega
  have hupper := scanEdges_eq s c p0 p1 p0 p2 last p0.y
  have hlower := scanEdges_eq s c p1 p2 p0 p2 p2.y (last + 1)
  simp only [sub_self, zero_mul] at hupper
  have hrange := intRange_append (a := p0.y) (b := last + 1) (c := p2.y) (by omega) (by omega)
  rw [hmid, mul_comm, mul_comm (p2.x - p0.x), hupper, hlower, ← hrange, List.flatMap_append, Int.add_sub_cancel]
  congr 1
  · refine List.flatMap_congr fun y hy => ?_
    obtain ⟨-, hy⟩ := mem_intRange.mp hy
    rw [shortEdge, if_pos (by omega)]
  · refine List.flatMap_congr fun y hy => ?_
    obtain ⟨hy, hy2⟩ := mem_intRange.mp hy
    rw [shortEdge, if_neg (by omega)]

/-- FILL_TRIANGLE for its sorted vertices (R161). -/
theorem fillTriangle_eq (s : State) {x0 y0 x1 y1 x2 y2 : Int} {p0 p1 p2 : Vertex}
    (h : sortByY ⟨x0, y0⟩ ⟨x1, y1⟩ ⟨x2, y2⟩ = (p0, p1, p2)) (c : Word) :
    fillTriangle s x0 y0 x1 y1 x2 y2 c
      = if p0.y = p2.y then
          hline s (min p0.x (min p1.x p2.x)) p0.y (max p0.x (max p1.x p2.x) - min p0.x (min p1.x p2.x) + 1) c
        else (intRange p0.y p2.y).flatMap fun y => scanSpan s (shortEdge p0 p1 p2 y) (crossing p0 p2 y) y c := by
  obtain ⟨h01, h12, -⟩ := sortByY_spec h
  simp only [fillTriangle, h, fillSorted_eq s h01 h12]

/-! ## What is off the screen sends nothing -/

/-- An HLINE none of whose pixels is on the screen has no section (R103, R121). -/
theorem hline_eq_nil {s : State} {x y w : Int} (h : ∀ u, x ≤ u → u ≤ x + w - 1 → ¬s.OnScreen (u, y)) (c : Word) :
    hline s x y w c = [] := by
  have hclip : clip s x y w 1 = none := by
    rw [clip_eq, if_neg]
    rintro ⟨hw, -, hx, hy⟩
    refine h (max x 0) (le_max_left _ _) (by omega) ?_
    simp only [State.OnScreen]
    omega
  simp only [hline, solid, hclip]

/-- A scanline is one HLINE from its lesser to its greater crossing (R161). -/
theorem scanSpan_eq (s : State) (a b y : Int) (c : Word) : scanSpan s a b y c = hline s (min a b) y (|a - b| + 1) c := by
  unfold scanSpan
  split
  · rw [min_eq_right (by omega), abs_of_nonneg (by omega)]
  · rw [min_eq_left (by omega), abs_of_nonpos (by omega), neg_sub]

theorem scanSpan_eq_nil {s : State} {a b y : Int} (h : ∀ u, min a b ≤ u → u ≤ max a b → ¬s.OnScreen (u, y)) (c : Word) :
    scanSpan s a b y c = [] := by
  rw [scanSpan_eq]
  refine hline_eq_nil (fun u hu hu' => h u hu ?_) c
  have habs := max_sub_min_eq_abs' a b
  omega

/-- A pixel of FILL_TRIANGLE for sorted vertices: between the two crossings of its scanline, or, where all vertices are on one
row, between the least and the greatest column (R161, R162). -/
def InTriangle (p0 p1 p2 : Vertex) (x y : Int) : Prop :=
  if p0.y = p2.y then min p0.x (min p1.x p2.x) ≤ x ∧ x ≤ max p0.x (max p1.x p2.x)
  else min (shortEdge p0 p1 p2 y) (crossing p0 p2 y) ≤ x ∧ x ≤ max (shortEdge p0 p1 p2 y) (crossing p0 p2 y)

/-- A filled triangle none of whose pixels is on the screen has no section (R105). -/
theorem fillTriangle_eq_nil {s : State} {x0 y0 x1 y1 x2 y2 : Int} {p0 p1 p2 : Vertex}
    (hsort : sortByY ⟨x0, y0⟩ ⟨x1, y1⟩ ⟨x2, y2⟩ = (p0, p1, p2))
    (hoff : ∀ x y, p0.y ≤ y → y ≤ p2.y → InTriangle p0 p1 p2 x y → ¬s.OnScreen (x, y)) (c : Word) :
    fillTriangle s x0 y0 x1 y1 x2 y2 c = [] := by
  obtain ⟨h01, h12, -⟩ := sortByY_spec hsort
  rw [fillTriangle_eq s hsort]
  split
  · rename_i hrow
    exact hline_eq_nil (fun u hu hu' => hoff u p0.y le_rfl hrow.le ((if_pos hrow).mpr ⟨hu, by omega⟩)) c
  · rename_i hrows
    refine List.flatMap_eq_nil_iff.mpr fun y hy => scanSpan_eq_nil (fun u hu hu' => ?_) c
    obtain ⟨hy0, hy2⟩ := mem_intRange.mp hy
    exact hoff u y hy0 hy2 ((if_neg hrows).mpr ⟨hu, hu'⟩)

/-- A triangle's pixels lie between the least and the greatest column of its vertices. -/
theorem InTriangle.between {p0 p1 p2 : Vertex} {x y : Int} (h0 : p0.y ≤ y) (h2 : y ≤ p2.y)
    (h : InTriangle p0 p1 p2 x y) : min p0.x (min p1.x p2.x) ≤ x ∧ x ≤ max p0.x (max p1.x p2.x) := by
  unfold InTriangle at h
  split at h
  · exact h
  · have hshort := shortEdge_between (p1 := p1) h0 h2
    have hlong := crossing_between h0 h2
    omega

/-- A line none of whose points is on the screen has no section (R105, R127). -/
theorem line_eq_nil {s : State} {x0 y0 x1 y1 : Int} (h : ∀ p ∈ (linePixels x0 y0 x1 y1).logical, ¬s.OnScreen p) (c : Word) :
    line s x0 y0 x1 y1 c = [] := by
  obtain ⟨hspell, hends⟩ := runsOf_linePixels x0 y0 x1 y1
  refine List.flatMap_eq_nil_iff.mpr fun r hr => List.eq_nil_iff_forall_not_mem.mpr fun cr hcr => ?_
  obtain ⟨a, b, e, hra, hab, hbr, -, hon, -⟩ := mem_lineRun (hends r hr).2 hcr
  have hpoint : (a, r.m) ∈ (linePixels x0 y0 x1 y1).pts := by
    rw [← hspell]
    exact List.mem_flatMap.mpr ⟨r, hr, List.mem_map.mpr ⟨a, mem_intRange.mpr ⟨hra, hab.trans hbr⟩, rfl⟩⟩
  exact h _ (List.mem_map.mpr ⟨_, hpoint, rfl⟩) hon

/-- A request that writes no register, reads no changing memory and has no section ends at once, whatever the transport does. -/
theorem exec_of_sectionsOf_nil {i : Instr} {s : State} (hw : i.WellFormed) (hc : commitOf i s = id) (hs : settledFor i s = s)
    (hn : sectionsOf i s = []) : exec i s = .next (s.afterBus []) := by
  rw [exec_eq i s hw, hc, hs, hn]
  simp [perform, runAll, State.afterBus, endRequest, State.clearBusy]

/-- Settles O57: no point, or no pixel of a scanline, is left for a section; vertices beyond one edge of the screen keep every pixel
there. -/
theorem offScreenShapesAreSilent : Obligations.OffScreenShapesAreSilent := by
  intro s x0 y0 x1 y1 x2 y2 c
  have htriangle : ∀ p0 p1 p2 : Vertex,
      sortByY ⟨x0.toInt, y0.toInt⟩ ⟨x1.toInt, y1.toInt⟩ ⟨x2.toInt, y2.toInt⟩ = (p0, p1, p2) →
      (∀ x y, p0.y ≤ y → y ≤ p2.y → InTriangle p0 p1 p2 x y → ¬s.OnScreen (x, y)) →
      exec (.fillTriangle x0 y0 x1 y1 x2 y2 c) s = .next (s.afterBus []) :=
    fun p0 p1 p2 hsort hoff => exec_of_sectionsOf_nil rfl rfl rfl (fillTriangle_eq_nil hsort hoff c)
  refine ⟨fun h => exec_of_sectionsOf_nil rfl rfl rfl (line_eq_nil h c), htriangle, fun hbeyond => ?_⟩
  rcases hsort : sortByY ⟨x0.toInt, y0.toInt⟩ ⟨x1.toInt, y1.toInt⟩ ⟨x2.toInt, y2.toInt⟩ with ⟨p0, p1, p2⟩
  refine htriangle p0 p1 p2 hsort fun x y hy0 hy2 hin hon => ?_
  have hx := hin.between hy0 hy2
  have h0 := sortByY_box hsort (v := p0) (by simp)
  have h1 := sortByY_box hsort (v := p1) (by simp)
  have h2 := sortByY_box hsort (v := p2) (by simp)
  simp only [State.OnScreen] at hon
  omega

end Sys2Proof.Machine
end

section
/-!
PROOFS. The requests that draw pixels, spans, rectangles and lines: each is decoded from its words and sends the bursts of its parts.
Then the points of a line in closed form, and its runs.
-/

namespace Sys2Proof.Machine

/-! ## Pixels, spans and rectangles -/

/-- What every drawing request here comes to: its words decode to it, and, its awaits all answered, it does nothing but send the
events of its sections. -/
theorem decode_and_exec_drawing {i : Instr} {s : State} {ws rest : List Word} {evs : List BusEvent} (h : s.TransportAnswers)
    (he : eventsOf (sectionsOf i s) = evs) (hws : ws = encode i ++ rest := by rfl) (hw : i.WellFormed := by rfl)
    (hc : commitOf i s = id := by rfl) (hs : settledFor i s = s := by rfl) :
    decode ws = .ok i rest ∧ exec i s = .next (s.afterBus evs) :=
  ⟨decode_of_eq_encode hw hws, he ▸ exec_answered h hw hc hs⟩

/-- Settles O35: PIXEL's section is one burst, or there is none. -/
theorem pixelIsOneWordOrNothing : Obligations.PixelIsOneWordOrNothing := by
  intro s x y c rest h
  exact decode_and_exec_drawing h (pixel_events s x.toInt y.toInt c)

/-- A rectangle that covers the whole screen is clipped to it (R102). -/
theorem solidEvents_screen {s : State} {w h : Int} (c : Word) (hw : 1 ≤ s.ds.width.toNat) (hwle : (s.ds.width.toNat : Int) ≤ w)
    (hh : 1 ≤ s.ds.height.toNat) (hhle : (s.ds.height.toNat : Int) ≤ h) :
    solidEvents s 0 0 w h c = burstEvents s 0 0 (s.ds.width.toNat - 1) (s.ds.height.toNat - 1)
      (List.replicate (s.ds.width.toNat * s.ds.height.toNat) c) := by
  have hx : min (0 + w - 1) ((s.ds.width.toNat : Int) - 1) = s.ds.width.toNat - 1 := by omega
  have hy : min (0 + h - 1) ((s.ds.height.toNat : Int) - 1) = s.ds.height.toNat - 1 := by omega
  simp only [solidEvents, hx, hy, max_self, sub_zero, sub_add_cancel]
  rw [if_pos (by omega), Int.toNat_mul (by omega) (by omega), Int.toNat_natCast, Int.toNat_natCast]

/-- Settles O36: each of the requests is one SOLID, and FILL_SCREEN's covers the screen. -/
theorem solidRequestsFillTheClippedRectangle : Obligations.SolidRequestsFillTheClippedRectangle := by
  intro s x y w h c rest hanswers
  obtain ⟨hdecH, hexecH⟩ := decode_and_exec_drawing (i := .hline x y w c) (rest := rest) hanswers
    (hline_events s x.toInt y.toInt w.toInt c)
  obtain ⟨hdecV, hexecV⟩ := decode_and_exec_drawing (i := .vline x y h c) (rest := rest) hanswers
    (vline_events s x.toInt y.toInt h.toInt c)
  have hfill (x y w h : Word) := decode_and_exec_drawing (i := .fillRect x y w h c) (rest := rest) hanswers
    (fillRect_events s x.toInt y.toInt w.toInt h.toInt c)
  obtain ⟨hdecF, hexecF⟩ := hfill x y w h
  refine ⟨hdecH, hexecH, hdecV, hexecV, hdecF, hexecF, fun hw hwle hh hhle => ?_⟩
  rw [← solidEvents_screen (w := 0x7FFF) (h := 0x7FFF) _ hw (by omega) hh (by omega)]
  exact (hfill 0 0 0x7FFF 0x7FFF).2

/-- RECT is its top, bottom, left and right span (R124). -/
theorem rect_events (s : State) (x y w h : Int) (c : Word) :
    eventsOf (rect s x y w h c)
      = solidEvents s x y w 1 (hvWord s c) ++ solidEvents s x (y + h - 1) w 1 (hvWord s c)
        ++ solidEvents s x y 1 h (hvWord s c) ++ solidEvents s (x + w - 1) y 1 h (hvWord s c) := by
  simp only [rect, eventsOf_append, hline_events, vline_events]

/-- Settles O37: the four spans are sections of their own. -/
theorem rectIsFourSpans : Obligations.RectIsFourSpans := by
  intro s x y w h c rest hanswers
  exact decode_and_exec_drawing hanswers (rect_events s x.toInt y.toInt w.toInt h.toInt c)

/-! ## Lines -/

/-- Settles O38: each run has a section of its own, or none. -/
theorem lineIsOneBurstARun : Obligations.LineIsOneBurstARun := by
  intro s x0 y0 x1 y1 c rest hanswers
  exact decode_and_exec_drawing hanswers (line_events s x0.toInt y0.toInt x1.toInt y1.toInt c)

/-- The loop of LINE_PIXELS (R126) in closed form: `err` is what is left of `dx` until the minor coordinate moves, so after `k` steps
it has moved as often as `dx` fits into `k * dy + (dx - 1 - err)`. -/
theorem linePoints_eq {dx dy : Int} (ystep : Int) (hdx : 0 < dx) (hdy : 0 ≤ dy) (hle : dy ≤ dx) (n : Nat) (u y : Int) {err : Int}
    (herr : 0 ≤ err) (hlt : err < dx) :
    linePoints dx dy ystep n u y err = (List.range n).map fun k : Nat =>
      (u + (k : Int), y + ystep * (((k : Int) * dy + dx - 1 - err) / dx)) := by
  induction n generalizing u y err with
  | zero => rfl
  | succ n ih =>
    have hzero : (dx - 1 - err) / dx = 0 := Int.ediv_eq_zero_of_lt (by omega) (by omega)
    rw [linePoints, List.range_succ_eq_map, List.map_cons, List.map_map]
    congr 1
    · simp [hzero]
    split
    case isTrue hmoves =>
      rw [ih _ _ (by omega) (by omega)]
      refine List.map_congr_left fun k _ => ?_
      have hnum : ((k + 1 : Nat) : Int) * dy + dx - 1 - err = k * dy + dx - 1 - (err - dy + dx) + dx := by push_cast; ring
      rw [Function.comp_apply, hnum, Int.add_ediv_of_dvd_right dvd_rfl, Int.ediv_self hdx.ne']
      ext <;> push_cast <;> ring
    case isFalse hstays =>
      rw [ih _ _ (by omega) (by omega)]
      refine List.map_congr_left fun k _ => ?_
      have hnum : ((k + 1 : Nat) : Int) * dy + dx - 1 - err = k * dy + dx - 1 - (err - dy) := by push_cast; ring
      rw [Function.comp_apply, hnum]
      ext <;> push_cast <;> ring

/-- LINE_PIXELS without the axis swap, in closed form (R126): upward from the end with the lesser major coordinate, the minor
coordinate going toward the other end. -/
def closedLine (steep : Bool) (major0 minor0 major1 minor1 : Int) : LinePixels :=
  let v0 := if major0 > major1 then minor1 else minor0
  let v1 := if major0 > major1 then minor0 else minor1
  let dx := |major1 - major0|
  let dy := |minor1 - minor0|
  { steep := steep
    xEnd := max major0 major1
    pts := (List.range (dx.toNat + 1)).map fun k : Nat =>
      (min major0 major1 + (k : Int), v0 + (if v0 < v1 then 1 else -1) * (((k : Int) * dy + dx - 1 - dx / 2) / dx)) }

/-- The endpoint swap changes nothing in the closed form. -/
theorem closedLine_swap (steep : Bool) {u0 u1 : Int} (h : u1 < u0) (v0 v1 : Int) :
    closedLine steep u1 v1 u0 v0 = closedLine steep u0 v0 u1 v1 := by
  simp only [closedLine, if_pos h, if_neg h.not_gt, gt_iff_lt, min_comm u1, max_comm u1, abs_sub_comm u0, abs_sub_comm v0]

/-- LINE_PIXELS after its swaps has the closed form; the loop of a line of one point takes no step. -/
theorem lineScan_eq (steep : Bool) {u0 v0 u1 v1 : Int} (hu : u0 ≤ u1) (hv : |v1 - v0| ≤ |u1 - u0|) :
    lineScan steep u0 v0 u1 v1 = closedLine steep u0 v0 u1 v1 := by
  have hdx : |u1 - u0| = u1 - u0 := abs_of_nonneg (by omega)
  have hlen : spanLen u0 u1 = (u1 - u0).toNat + 1 := by unfold spanLen; omega
  simp only [lineScan, closedLine, hdx, hlen, gt_iff_lt, if_neg hu.not_gt, min_eq_left hu, max_eq_right hu]
  congr 1
  rcases hu.eq_or_lt with rfl | hlt
  · simp [linePoints]
  · exact linePoints_eq _ (by omega) (abs_nonneg _) (by omega) _ _ _ (by omega) (by omega)

theorem lineOrder_eq (steep : Bool) {u0 v0 u1 v1 : Int} (h : |v1 - v0| ≤ |u1 - u0|) :
    lineOrder steep u0 v0 u1 v1 = closedLine steep u0 v0 u1 v1 := by
  unfold lineOrder
  split
  case isTrue hgt => rw [lineScan_eq steep hgt.le (by rwa [abs_sub_comm v0, abs_sub_comm u0]), closedLine_swap steep hgt]
  case isFalse hle => exact lineScan_eq steep (not_lt.mp hle) h

/-- Settles O39: the closed form on the longer axis. -/
theorem linePixelsClosedForm : Obligations.LinePixelsClosedForm := by
  intro x0 y0 x1 y1 steep
  by_cases hsteep : steep
  · simp only [linePixels, steep, if_pos hsteep, decide_eq_true hsteep]
    exact lineOrder_eq true hsteep.le
  · simp only [linePixels, steep, if_neg hsteep, decide_eq_false hsteep]
    exact lineOrder_eq false (not_lt.mp hsteep)

/-- Two runs in a row have different minor coordinates: a point that could join the run behind it does (R127). -/
theorem runsOf_isChain (pts : List (Int × Int)) : (runsOf pts).IsChain fun r r' => r.m ≠ r'.m := by
  induction pts with
  | nil => exact .nil
  | cons p pts ih =>
    unfold runsOf
    cases hruns : runsOf pts with
    | nil => exact .singleton _
    | cons r rs =>
      rw [hruns] at ih
      by_cases hm : r.m = p.2
      · simp only [if_pos hm]
        obtain ⟨hhead, htail⟩ := List.isChain_cons.mp ih
        exact List.isChain_cons.mpr ⟨hm ▸ hhead, htail⟩
      · simp only [if_neg hm]
        exact List.isChain_cons_cons.mpr ⟨Ne.symm hm, ih⟩

/-- Settles O40: the runs of a line spell out its points, and no two runs of any points could be joined. -/
theorem runsAreMaximal : Obligations.RunsAreMaximal := by
  intro x0 y0 x1 y1 pts
  obtain ⟨hspell, hends⟩ := runsOf_linePixels x0 y0 x1 y1
  exact ⟨hspell, fun r hr => (hends r hr).1, runsOf_isChain pts⟩

end Sys2Proof.Machine
end

section
/-!
PROOFS. Circles and rounded rectangles. The midpoint loop as a walk whose test is the circle's own; then the requests that draw
reflections and vertical spans; then that CIRCLE and CIRCLE_HELPER with all quadrants draw the same pixels.
-/

namespace Sys2Proof.Machine

/-! ## The midpoint walk -/

/-- The point after one midpoint step: y goes down where the midpoint is not inside the circle of radius `r` (R140). -/
def midpointNext (r : Int) (p : Int × Int) : Int × Int :=
  (p.1 + 1, if r * r ≤ (p.1 + 1) * (p.1 + 1) + p.2 * p.2 - p.2 then p.2 - 1 else p.2)

/-- The loop of MIDPOINT at a point, its registers holding what they hold there for radius `r`: `f` is the circle's equation at the
midpoint, `ddFx` and `ddFy` its differences (R140). -/
def midpointWalk (r : Int) (n : Nat) (p : Int × Int) : List (Int × Int) :=
  midpointLoop n ((p.1 + 1) * (p.1 + 1) + p.2 * p.2 - p.2 - r * r) (2 * p.1 + 1) (-2 * p.2) p.1 p.2

theorem midpointSteps_eq_walk (r : Int) : midpointSteps r = midpointWalk r r.toNat (0, r) := by
  unfold midpointSteps midpointWalk
  congr 1
  ring

@[simp] theorem midpointWalk_zero (r : Int) (p : Int × Int) : midpointWalk r 0 p = [] := rfl

/-- Each branch of the loop keeps its registers in step with the point. -/
theorem midpointWalk_succ (r : Int) (n : Nat) (p : Int × Int) :
    midpointWalk r (n + 1) p = if p.1 < p.2 then midpointNext r p :: midpointWalk r n (midpointNext r p) else [] := by
  unfold midpointWalk midpointNext
  rw [midpointLoop]
  by_cases hout : r * r ≤ (p.1 + 1) * (p.1 + 1) + p.2 * p.2 - p.2
  · simp only [sub_nonneg, if_pos hout]
    congr 3 <;> ring
  · simp only [sub_nonneg, if_neg hout]
    congr 3 <;> ring

/-- Every step is the next point of one whose x is less than its y. -/
theorem midpointWalk_isChain (r : Int) (n : Nat) (p : Int × Int) :
    (p :: midpointWalk r n p).IsChain fun p q => p.1 < p.2 ∧ q = midpointNext r p := by
  induction n generalizing p with
  | zero => exact .singleton p
  | succ n ih =>
    rw [midpointWalk_succ]
    split
    · exact List.isChain_cons_cons.mpr ⟨⟨‹_›, rfl⟩, ih _⟩
    · exact .singleton p

/-- A step brings x and y closer to each other. -/
theorem midpointNext_gap (r : Int) (p : Int × Int) :
    (midpointNext r p).2 - (midpointNext r p).1 ≤ p.2 - p.1 - 1 := by
  unfold midpointNext
  dsimp only
  split <;> omega

/-- With fuel for the distance between x and y the walk ends where y is at most x. -/
theorem midpointWalk_getLast {r : Int} {n : Nat} {p q : Int × Int} (hfuel : p.2 - p.1 ≤ n)
    (hlast : (p :: midpointWalk r n p).getLast? = some q) : q.2 ≤ q.1 := by
  induction n generalizing p with
  | zero =>
    obtain rfl : p = q := by simpa using hlast
    omega
  | succ n ih =>
    rw [midpointWalk_succ] at hlast
    split at hlast
    · have hgap := midpointNext_gap r p
      exact ih (p := midpointNext r p) (by omega) (by simpa using hlast)
    · obtain rfl : p = q := by simpa using hlast
      omega

/-- A step from where x is less than y goes at most one beyond the diagonal. -/
theorem midpointNext_le {r : Int} {p : Int × Int} (h : p.1 < p.2) :
    (midpointNext r p).1 ≤ (midpointNext r p).2 + 1 := by
  unfold midpointNext
  dsimp only
  split <;> omega

theorem mem_midpointWalk {r : Int} {n : Nat} {p q : Int × Int} (h0 : 0 ≤ p.1) (hq : q ∈ midpointWalk r n p) :
    1 ≤ q.1 ∧ q.1 ≤ q.2 + 1 := by
  induction n generalizing p with
  | zero => cases hq
  | succ n ih =>
    rw [midpointWalk_succ, List.mem_ite_nil_right, List.mem_cons] at hq
    have h1 : 1 ≤ (midpointNext r p).1 := Int.le_add_of_nonneg_left h0
    obtain ⟨hlt, rfl | hrest⟩ := hq
    · exact ⟨h1, midpointNext_le hlt⟩
    · exact ih (by omega) hrest

theorem length_midpointWalk_le (r : Int) (n : Nat) (p : Int × Int) : (midpointWalk r n p).length ≤ n := by
  induction n generalizing p with
  | zero => exact le_rfl
  | succ n ih =>
    rw [midpointWalk_succ]
    split
    · exact Nat.succ_le_succ (ih _)
    · exact Nat.zero_le _

/-- Settles O41: the loop is the walk, and `r` is fuel enough for it. -/
theorem midpointFollowsTheCircle : Obligations.MidpointFollowsTheCircle := by
  intro r
  rw [midpointSteps_eq_walk]
  exact ⟨midpointWalk_isChain r _ _, fun _ => midpointWalk_getLast (by simp only; omega),
    fun _ => mem_midpointWalk le_rfl, length_midpointWalk_le r _ _⟩

/-! ## Circles, filled circles and rounded rectangles -/

/-- Settles O42: every point has a section of its own, or none. -/
theorem circlesDrawTheirReflections : Obligations.CirclesDrawTheirReflections := by
  intro s m x0 y0 r c rest hanswers
  have hhead : BitVec.ofNat 16 (0x1900 + m.toNat) = headWord 0x19 (m.setWidth 8) := by revert m; decide
  obtain ⟨hdec, hexec⟩ := decode_and_exec_drawing (i := .circle x0 y0 r c) (rest := rest) hanswers
    (circle_events s x0.toInt y0.toInt r.toInt c)
  obtain ⟨hdecHelper, hexecHelper⟩ := decode_and_exec_drawing (i := .circleHelper m x0 y0 r c) (rest := rest) hanswers
    (circleHelper_events s x0.toInt y0.toInt r.toInt m c) (congrArg (· :: _) hhead)
  exact ⟨hdec, hexec, hdecHelper, hexecHelper⟩

theorem spansEvents_cons (s : State) (p : Int × Int × Int) (ps : List (Int × Int × Int)) (c : Word) :
    spansEvents s (p :: ps) c = solidEvents s p.1 p.2.1 1 p.2.2 (hvWord s c) ++ spansEvents s ps c :=
  List.flatMap_cons

theorem spansEvents_append (s : State) (ps qs : List (Int × Int × Int)) (c : Word) :
    spansEvents s (ps ++ qs) c = spansEvents s ps c ++ spansEvents s qs c := List.flatMap_append

theorem pixelsEvents_append (s : State) (ps qs : List (Int × Int)) (c : Word) :
    pixelsEvents s (ps ++ qs) c = pixelsEvents s ps c ++ pixelsEvents s qs c := List.flatMap_append

/-- FILL_CIRCLE is the centre column, then the spans of both sides (R143). -/
theorem fillCircle_events (s : State) (x0 y0 r : Int) (c : Word) :
    eventsOf (fillCircle s x0 y0 r c) = spansEvents s ((x0, y0 - r, 2 * r + 1) :: helperSpans 3 x0 y0 r 0) c := by
  rw [fillCircle, eventsOf_append, vline_events, fillCircleHelper_events, spansEvents_cons]
  rfl

/-- Settles O43: every span is a VLINE, and FILL_CIRCLE's centre column comes first. -/
theorem filledCirclesDrawTheirSpans : Obligations.FilledCirclesDrawTheirSpans := by
  intro s m x0 y0 r extra c rest hanswers
  have hhead : BitVec.ofNat 16 (0x1B00 + m.toNat) = headWord 0x1B (m.setWidth 8) := by revert m; decide
  obtain ⟨hdec, hexec⟩ := decode_and_exec_drawing (i := .fillCircle x0 y0 r c) (rest := rest) hanswers
    (fillCircle_events s x0.toInt y0.toInt r.toInt c)
  obtain ⟨hdecHelper, hexecHelper⟩ := decode_and_exec_drawing (i := .fillCircleHelper m x0 y0 r extra c) (rest := rest) hanswers
    (fillCircleHelper_events s x0.toInt y0.toInt r.toInt m extra.toInt c) (congrArg (· :: _) hhead)
  exact ⟨hdec, hexec, hdecHelper, hexecHelper⟩

/-- ROUND_RECT is four edges, then the corners upper-left, upper-right, lower-right, lower-left (R145). -/
theorem roundRect_events (s : State) (x y w h r : Int) (c : Word) :
    eventsOf (roundRect s x y w h r c)
      = solidEvents s (x + r) y (w - 2 * r) 1 (hvWord s c) ++ solidEvents s (x + r) (y + h - 1) (w - 2 * r) 1 (hvWord s c)
        ++ solidEvents s x (y + r) 1 (h - 2 * r) (hvWord s c) ++ solidEvents s (x + w - 1) (y + r) 1 (h - 2 * r) (hvWord s c)
        ++ pixelsEvents s (helperPixels 1 (x + r) (y + r) r ++ helperPixels 2 (x + w - r - 1) (y + r) r
          ++ helperPixels 4 (x + w - r - 1) (y + h - r - 1) r ++ helperPixels 8 (x + r) (y + h - r - 1) r) c := by
  simp only [roundRect, eventsOf_append, hline_events, vline_events, circleHelper_events, pixelsEvents_append, List.append_assoc,
    BitVec.reduceToNat]

/-- FILL_ROUND_RECT is the inset rectangle, then the right side, then the left side (R146). -/
theorem fillRoundRect_events (s : State) (x y w h r : Int) (c : Word) :
    eventsOf (fillRoundRect s x y w h r c)
      = solidEvents s (x + r) y (w - 2 * r) h (plainWord s c)
        ++ spansEvents s (helperSpans 1 (x + w - r - 1) (y + r) r (h - 2 * r - 1)
          ++ helperSpans 2 (x + r) (y + r) r (h - 2 * r - 1)) c := by
  simp only [fillRoundRect, eventsOf_append, fillRect_events, fillCircleHelper_events, spansEvents_append, List.append_assoc,
    BitVec.reduceToNat]

/-- Settles O44: the parts are drawn one after another, as the pseudocode of R145 and R146 lists them. -/
theorem roundedRectanglesAreTheirParts : Obligations.RoundedRectanglesAreTheirParts := by
  intro s xw yw ww hw rw c rest hanswers x y w h r
  obtain ⟨hdec, hexec⟩ := decode_and_exec_drawing (i := .roundRect xw yw ww hw rw c) (rest := rest) hanswers
    (roundRect_events s x y w h r c)
  obtain ⟨hdecFill, hexecFill⟩ := decode_and_exec_drawing (i := .fillRoundRect xw yw ww hw rw c) (rest := rest) hanswers
    (fillRoundRect_events s x y w h r c)
  exact ⟨hdec, hexec, hdecFill, hexecFill⟩

/-! ## The pixels of a circle -/

/-- A PIXEL writes its pixel if it is on the screen (R104, R120). -/
theorem State.Writes.pixel {s : State} (hd : OpcodesDistinct s.cfg) (hf : s.WindowFits) (p : Int × Int) (w : Word) :
    s.Writes (pixelEvents s p.1 p.2 w) (s.drawnPixels [p] w) := by
  unfold pixelEvents
  split
  · have hon : s.OnScreen p := ‹_›
    have hrow := State.Writes.row hd hf hon hon le_rfl le_rfl w
    simpa [State.drawnPixels, hon, spanLen_self, intRange_cons, intRange_of_lt] using hrow
  · have hoff : ¬s.OnScreen p := ‹_›
    simpa [State.drawnPixels, hoff] using State.Writes.nil s

/-- PIXELs at a list of points write those that are on the screen, in order. -/
theorem State.Writes.pixels {s : State} (hd : OpcodesDistinct s.cfg) (hf : s.WindowFits) (ps : List (Int × Int)) (c : Word) :
    s.Writes (pixelsEvents s ps c) (s.drawnPixels ps (plainWord s c)) := by
  have hpoints : s.drawnPixels ps (plainWord s c) = ps.flatMap fun p => s.drawnPixels [p] (plainWord s c) := by
    rw [← drawnPixels_flatMap, List.flatMap_singleton']
  rw [hpoints]
  exact .flatMap fun p _ => .pixel hd hf p _

/-- Points drawn from the same set write the same set of pixels. -/
theorem mem_drawnPixels_congr {ps qs : List (Int × Int)} (h : ∀ p, p ∈ ps ↔ p ∈ qs) (s : State) (w : Word) (q : PixelWrite) :
    q ∈ s.drawnPixels ps w ↔ q ∈ s.drawnPixels qs w := by
  simp only [State.drawnPixels, List.mem_map, List.mem_filter, h]

/-- The eight reflections of a midpoint step in CIRCLE's order are those in CIRCLE_HELPER's order (R141, R142). -/
theorem reflections_perm {α : Type} [BEq α] [LawfulBEq α] (a b c d e f g h : α) :
    [a, b, c, d, e, f, g, h].Perm [a, e, c, g, f, b, h, d] :=
  List.perm_iff_count.mpr fun q => by simp only [List.count_cons]; ac_rfl

/-- All four quadrants together are the whole circle (R148): the axis points, and of each midpoint step the eight reflections. -/
theorem circlePixels_perm_helperPixels (x0 y0 r : Int) : (circlePixels x0 y0 r).Perm (helperPixels 0xF x0 y0 r) :=
  .append (.refl _) (.flatMap_left _ fun _ _ => reflections_perm _ _ _ _ _ _ _ _)

/-- Settles O54: the two draw points of the same set. -/
theorem circleEqualsItsFullHelper : Obligations.CircleEqualsItsFullHelper := by
  intro s t u k x0 y0 r c hanswers hd hf ht hu
  rw [exec_answered_events hanswers rfl rfl rfl ht, exec_answered_events hanswers rfl rfl rfl hu, sectionsOf, sectionsOf,
    circle_events, circleHelper_events, (State.Writes.pixels hd hf _ c).writesOf k, (State.Writes.pixels hd hf _ c).writesOf k]
  exact mem_drawnPixels_congr (fun p => (circlePixels_perm_helperPixels _ _ _).mem_iff) s _

end Sys2Proof.Machine
end

section
/-!
PROOFS. The requests that draw triangles and bitmaps: the sides of TRIANGLE, the stable sort and the spans of FILL_TRIANGLE, the set
bits of BITMAP where no byte changes.
-/

namespace Sys2Proof.Machine

/-! ## Triangles -/

/-- TRIANGLE is its three sides, one after another (R160). -/
theorem triangle_events (s : State) (x0 y0 x1 y1 x2 y2 : Int) (c : Word) :
    eventsOf (triangle s x0 y0 x1 y1 x2 y2 c)
      = eventsOf (line s x0 y0 x1 y1 c) ++ eventsOf (line s x1 y1 x2 y2 c) ++ eventsOf (line s x2 y2 x0 y0 c) := by
  simp only [triangle, eventsOf_append]

/-- Settles O45: each side is a LINE of its own. -/
theorem triangleIsThreeLines : Obligations.TriangleIsThreeLines := by
  intro s x0 y0 x1 y1 x2 y2 c rest hanswers side
  have hside : ∀ ax ay bx by' : Word, eventsOf (line s ax.toInt ay.toInt bx.toInt by'.toInt c) = side ax ay bx by' :=
    fun _ _ _ _ => line_events s _ _ _ _ c
  refine decode_and_exec_drawing (i := .triangle x0 y0 x1 y1 x2 y2 c) hanswers ?_
  simp only [sectionsOf, s16, triangle_events, hside]

/-! ## The sort of FILL_TRIANGLE -/

/-- One compare-exchange swaps no two vertices of one row, whatever vertices follow (R161). -/
theorem orderByY_filter (p q : Vertex) (vs : List Vertex) (k : Int) :
    ((orderByY p q).1 :: (orderByY p q).2 :: vs).filter (fun v => v.y == k) = (p :: q :: vs).filter fun v => v.y == k := by
  unfold orderByY
  split
  case isTrue hgt =>
    by_cases hp : p.y = k
    · have hq : q.y ≠ k := by omega
      simp [hp, hq]
    · simp [List.filter_cons, hp]
  case isFalse => rfl

/-- The sort keeps the order of the vertices on each row (R161): none of its three compare-exchanges changes it. -/
theorem sortByY_filter {p q r a b c : Vertex} (h : sortByY p q r = (a, b, c)) (k : Int) :
    [a, b, c].filter (fun v => v.y == k) = [p, q, r].filter fun v => v.y == k := by
  simp only [sortByY, Prod.mk.injEq] at h
  obtain ⟨rfl, rfl, rfl⟩ := h
  rw [orderByY_filter, List.filter_cons, orderByY_filter, ← List.filter_cons (p := fun v : Vertex => v.y == k), orderByY_filter]

/-- Settles O46: the sorted vertices ascend, and each row keeps its order. -/
theorem verticesAreSortedByRow : Obligations.VerticesAreSortedByRow := by
  intro p q r a b c h
  obtain ⟨hab, hbc, -⟩ := sortByY_spec h
  exact ⟨hab, hbc, sortByY_filter h⟩

/-! ## The spans of FILL_TRIANGLE -/

theorem scanSpan_events (s : State) (a b y : Int) (c : Word) :
    eventsOf (scanSpan s a b y c) = solidEvents s (min a b) y (|a - b| + 1) 1 (hvWord s c) := by
  rw [scanSpan_eq, hline_events]

/-- Settles O47: the loops in closed form are one span a scanline, each a section of its own. -/
theorem fillTriangleSpansTheCrossings : Obligations.FillTriangleSpansTheCrossings := by
  intro s x0 y0 x1 y1 x2 y2 c rest p0 p1 p2 hanswers hsort
  refine decode_and_exec_drawing (i := .fillTriangle x0 y0 x1 y1 x2 y2 c) hanswers ?_
  simp only [sectionsOf, s16, fillTriangle_eq s hsort, apply_ite eventsOf, hline_events, eventsOf_flatMap, scanSpan_events]

/-! ## Bitmaps -/

/-- The bitmap address as a number (R62): the high word counts 65536. -/
theorem ofAddrWords_toNat (alo ahi : Word) : (ofAddrWords alo ahi).toNat = ahi.toNat * 65536 + alo.toNat := by
  rw [ofAddrWords, BitVec.toNat_append, ← Nat.shiftLeft_add_eq_or_of_lt alo.isLt, Nat.shiftLeft_eq]

/-- BITMAP's words decode to it, the address words low word first (R62, R65). -/
theorem decode_bitmap (x y w h c alo ahi : Word) (rest : List Word) :
    decode (0x2200 :: x :: y :: w :: h :: c :: alo :: ahi :: rest) = .ok (.bitmap x y w h c (ofAddrWords alo ahi)) rest := by
  refine decode_of_eq_encode rfl ?_
  simp only [encode, ofAddrWords, BitVec.extractLsb'_append_eq_left, BitVec.extractLsb'_append_eq_right]
  rfl

/-- Where no other agent changes a byte, only the reads are counted (R50). -/
theorem settleRace_of_no_race {s : State} (h : s.bitmapRace = []) (n : Nat) :
    settleRace n s = { s with raceReads := s.raceReads + n } := by
  simp [settleRace, h]

theorem memReadRacing_of_no_race {s : State} (h : s.bitmapRace = []) (n a : Nat) : memReadRacing s n a = memRead s a := by
  simp [memReadRacing, raceByte, h]

/-- Settles O48: the request reads every byte as it is, and its end leaves the bytes alone. -/
theorem bitmapDrawsItsSetBits : Obligations.BitmapDrawsItsSetBits := by
  intro s x y w h c alo ahi rest hanswers hrace addr
  have hnat : (ofAddrWords alo ahi).toNat = addr := ofAddrWords_toNat alo ahi
  have haddr : BitVec.ofNat 32 addr = ofAddrWords alo ahi := by rw [← hnat, BitVec.ofNat_toNat, BitVec.setWidth_eq]
  rw [haddr]
  refine ⟨decode_bitmap x y w h c alo ahi rest, ?_⟩
  rw [exec_bitmap hanswers, settleRace_of_no_race hrace, bitmapBlit_events, hnat]
  simp only [bitmapPixel, memReadRacing_of_no_race hrace]
  rfl

end Sys2Proof.Machine
end

section
/-!
PROOFS. The glyph renderer and the text stream: what the two paths of DRAW_CHAR send, what WRITE_CHAR draws and where it leaves the
cursor, what the text setters write. Then the pixels of the two paths, in the transposed window of the one and in the 48 pixels of
the other.
-/

namespace Sys2Proof.Machine

/-! ## Requests that write display registers -/

/-- The end of a request clears `BUSY` and leaves the two fault bits (R23, R66). -/
theorem clearBits_busyMask (v : Word) : clearBits busyMask v = v &&& 0x0006 := by
  rw [clearBits, BitVec.and_assoc]
  rfl

/-- A request that sends nothing and commits display registers alone, whatever the transport does. -/
theorem exec_registers {i : Instr} {s : State} {ds : DisplayState} (hw : i.WellFormed := by rfl)
    (hn : sectionsOf i s = [] := by rfl) (hs : settledFor i s = s := by rfl)
    (hc : ∀ t : State, t.ds = s.ds → commitOf i s t = { t with ds := ds } := by exact fun _ h => h ▸ rfl) :
    exec i s = .next { s.afterRegs with ds := ds } := by
  have hend : perform [] (commitOf i s) s = endRequest (commitOf i s { s with pendMad := none }) := rfl
  rw [exec_eq i s hw, hs, hn, hend, hc _ (by exact rfl), State.afterRegs, ← clearBits_busyMask]
  rfl

/-- A request that commits display registers alone, its awaits all answered: the events of its sections, then the registers. -/
theorem exec_answered_registers {i : Instr} {s : State} {ds : DisplayState} (h : s.TransportAnswers) (hw : i.WellFormed)
    (hs : settledFor i s = s) (hc : ∀ t : State, t.ds = s.ds → commitOf i s t = { t with ds := ds }) :
    exec i s = .next { s.afterBus (eventsOf (sectionsOf i s)) with ds := ds } := by
  rw [exec_eq i s hw, hs, perform_answered_eq _ _ _ h (sectionsOf_payload i s), hc _ (by exact rfl)]
  rfl

/-! ## Head words with an immediate -/

/-- A head word in numbers (R61). -/
theorem ofNat_eq_headWord (opc sub : Byte) : BitVec.ofNat 16 (opc.toNat * 256 + sub.toNat) = headWord opc sub := by
  rw [← headWord_toNat, BitVec.ofNat_toNat, BitVec.setWidth_eq]

/-- A request whose `SUB` is an immediate byte decodes from its head word in numbers (R62). -/
theorem decode_immediate {i : Instr} {opc sub : Byte} (rest : List Word) (hw : i.WellFormed) (he : encode i = [headWord opc sub]) :
    decode (BitVec.ofNat 16 (opc.toNat * 256 + sub.toNat) :: rest) = .ok i rest :=
  decode_of_eq_encode hw (by rw [he, ofNat_eq_headWord]; rfl)

/-! ## The text setters -/

/-- Settles O29: each setter has no section, and its commit writes its registers. -/
theorem textSettersWriteTheirRegisters : Obligations.TextSettersWriteTheirRegisters := by
  intro s rest x y sc f
  have hhead : BitVec.ofNat 16 (0x2D00 + f.toNat) = headWord 0x2D ((BitVec.ofBool f).setWidth 8) := by revert f; decide
  exact ⟨decode_of_eq_encode rfl rfl, exec_registers, decode_of_eq_encode rfl rfl, exec_registers,
    decode_immediate (opc := 0x2C) rest rfl rfl, exec_registers,
    decode_of_eq_encode rfl (congrArg (· :: rest) hhead), exec_registers⟩

/-! ## DRAW_CHAR -/

/-- A scale operand as a number: 0 stands for 1 (R180). -/
theorem scaleOf_toNat (sraw : Byte) : (scaleOf sraw).toNat = if sraw = 0 then 1 else sraw.toNat := by
  unfold scaleOf
  split <;> rfl

theorem eq_one_iff_toNat (sc : Byte) : sc = 1 ↔ sc.toNat = 1 := BitVec.toNat_inj.symm

/-- The positions of a cell in drawing order, counted column by column (R182, R183). -/
theorem cellOrder_eq : cellOrder = (List.range 48).map fun n : Nat => (n / 8, n % 8) := by decide

/-- One position of a cell is a pixel at scale 1, a block at a greater scale (R183). -/
theorem dot_events (s : State) (x y : Int) (i j : Nat) (sc : Byte) (c : Word) :
    eventsOf (dot s x y i j sc c) = dotEvents s x y i j sc.toNat c := by
  simp only [dot, dotEvents, eq_one_iff_toNat, apply_ite eventsOf, pixel_events, fillRect_events]

/-- The general path goes through the cell's positions, the background only where the colours differ (R183). -/
theorem glyphGeneral_events (s : State) (x y : Int) (fg bg : Word) (sc code : Byte) :
    eventsOf (glyphGeneral s x y fg bg sc (cellColumns s.cfg code)) = generalEvents s x y fg bg sc.toNat code := by
  simp only [glyphGeneral, generalEvents, cellOrder_eq, List.flatMap_map, eventsOf_flatMap, apply_ite eventsOf, dot_events,
    eventsOf_nil, cellBit_cellColumns]

/-- `FAST_OK` as the statements write it (R181). -/
theorem fastOk_iff (s : State) (x y : Int) (fg bg : Word) (sc : Byte) (g : Bool) :
    fastOk s x y fg bg sc g = true ↔ sc.toNat = 1 ∧ bg ≠ fg ∧ g = false ∧ 0 ≤ x ∧ x + 5 < (s.ds.width.toNat : Int)
      ∧ 0 ≤ y ∧ y + 7 < (s.ds.height.toNat : Int) := by
  simp only [fastOk, Bool.and_eq_true, decide_eq_true_eq, Bool.not_eq_true', eq_one_iff_toNat, and_assoc]
  rfl

/-- The body of DRAW_CHAR sends what the path that R181 selects sends. -/
theorem drawChar_events (s : State) (x y : Int) (fg bg : Word) (sraw code : Byte) (g : Bool) :
    eventsOf (drawChar s x y fg bg sraw code g) = charEvents s x y fg bg sraw code g := by
  simp only [drawChar, charEvents, fastOk_iff, ← scaleOf_toNat]
  split
  · rw [eventsOf_cons, glyphFast_events, eventsOf_nil, List.append_nil]
  · exact glyphGeneral_events s x y fg bg _ code

/-- Settles O50: the request's sections are the body of DRAW_CHAR. -/
theorem drawCharTakesItsPath : Obligations.DrawCharTakesItsPath := by
  intro s g x y fg bg sc code rest hanswers
  have hhead : BitVec.ofNat 16 (0x2800 + g.toNat) = headWord 0x28 ((BitVec.ofBool g).setWidth 8) := by revert g; decide
  exact decode_and_exec_drawing hanswers (drawChar_events s x.toInt y.toInt fg bg sc code g) (congrArg (· :: _) hhead)

/-! ## WRITE_CHAR -/

/-- WRITE_CHAR sends its sections and moves the cursor, reduced modulo 2^16 (R185). -/
theorem exec_writeChar {s : State} (h : s.TransportAnswers) (code : Byte) :
    exec (.writeChar code) s = .next { s.afterBus (eventsOf (textSections s code)) with
      ds := { s.ds with cursorX := u16 (textMove s code).cursor.1, cursorY := u16 (textMove s code).cursor.2 } } :=
  exec_answered_registers h rfl rfl fun _ hds => hds ▸ rfl

/-- Line feed draws nothing and moves the cursor to the start of the next line (R185). -/
theorem exec_writeChar_lineFeed {s : State} (h : s.TransportAnswers) :
    exec (.writeChar 0x0A) s = .next { s.afterBus [] with
      ds := { s.ds with cursorX := 0, cursorY := u16 (newline s).2 } } := exec_writeChar h 0x0A

/-- Carriage return draws nothing and leaves the cursor (R185). -/
theorem exec_writeChar_carriageReturn {s : State} (h : s.TransportAnswers) :
    exec (.writeChar 0x0D) s = .next (s.afterBus []) := by
  have hx : u16 (textMove s 0x0D).cursor.1 = s.ds.cursorX := BitVec.ofInt_toInt
  have hy : u16 (textMove s 0x0D).cursor.2 = s.ds.cursorY := BitVec.ofInt_toInt
  rw [exec_writeChar h, hx, hy]
  rfl

/-- Any other code draws its cell at the pen and moves the cursor six columns on (R185). -/
theorem exec_writeChar_printable {s : State} (h : s.TransportAnswers) {code : Byte} (hlf : code ≠ 0x0A) (hcr : code ≠ 0x0D) :
    exec (.writeChar code) s = .next
      { s.afterBus (charEvents s (penAt s).1 (penAt s).2 s.ds.textColor s.ds.textBg s.ds.textScale code false) with
        ds := { s.ds with
          cursorX := u16 ((penAt s).1 + 6 * (s.ds.textScale.toNat : Int)), cursorY := u16 (penAt s).2 } } := by
  have hmove : textMove s code = ⟨some (penAt s), ((penAt s).1 + 6 * (s.ds.textScale.toNat : Int), (penAt s).2)⟩ := by
    rw [textMove, if_neg hlf, if_neg hcr]
  rw [exec_writeChar h, textSections, hmove, ← drawChar_events]

/-- The pen is at the cursor, or at the start of the next line where the cell would exceed the right margin and wrapping is on
(R185). -/
theorem penAt_eq (s : State) :
    let wrapped := s.ds.wrap = true ∧ s.ds.cursorX.toInt + 6 * (s.ds.textScale.toNat : Int) > (s.ds.width.toNat : Int)
    penAt s = (if wrapped then 0 else s.ds.cursorX.toInt,
      if wrapped then s.ds.cursorY.toInt + 8 * (s.ds.textScale.toNat : Int) else s.ds.cursorY.toInt) := by
  intro wrapped
  have hwraps : wraps s = true ↔ wrapped := by simp [wraps, wrapped, s16, screenW]
  simp only [penAt, hwraps]
  split <;> rfl

/-- Settles O51: the three kinds of code. -/
theorem writeCharDrawsAndAdvances : Obligations.WriteCharDrawsAndAdvances := by
  intro s code rest hanswers sc cx cy wrapped px py
  refine ⟨decode_immediate (opc := 0x29) rest rfl rfl, ?_⟩
  have hpen : penAt s = (px, py) := penAt_eq s
  by_cases hlf : code = 0x0A
  · rw [if_pos hlf, hlf]
    exact exec_writeChar_lineFeed hanswers
  by_cases hcr : code = 0x0D
  · rw [if_neg hlf, if_pos hcr, hcr]
    exact exec_writeChar_carriageReturn hanswers
  · rw [if_neg hlf, if_neg hcr, exec_writeChar_printable hanswers hlf hcr, hpen]
    rfl

/-! ## The pixels of a cell -/

/-- The 48 pixels of a cell, column by column: foreground where the glyph's bit is set, background elsewhere (R184). -/
def cellPixels (s : State) (x y : Int) (fg bg : Word) (code : Byte) : List PixelWrite :=
  (List.range 48).map fun (n : Nat) =>
    ⟨some (x + ((n / 8 : Nat) : Int), y + ((n % 8 : Nat) : Int)), plainWord s (if glyphBit s code n = true then fg else bg)⟩

/-- A place of the cell is on the screen, where the cell is. -/
theorem onScreen_cell {s : State} {x y : Int} (h0 : s.OnScreen (x, y)) (h1 : s.OnScreen (x + 5, y + 7)) {n : Nat}
    (hn : n < 48) : s.OnScreen (x + ((n / 8 : Nat) : Int), y + ((n % 8 : Nat) : Int)) := by
  simp only [State.OnScreen] at h0 h1 ⊢
  omega

/-! ### The general path -/

theorem drawnPixels_of_onScreen {s : State} {p : Int × Int} (h : s.OnScreen p) (w : Word) :
    s.drawnPixels [p] w = [⟨some p, w⟩] := by
  simp [State.drawnPixels, h]

/-- At scale 1, where the colours differ, the general path is one pixel a position (R183). -/
theorem generalEvents_one (s : State) (x y : Int) {fg bg : Word} (hne : bg ≠ fg) (code : Byte) :
    generalEvents s x y fg bg 1 code = (List.range 48).flatMap fun n : Nat =>
      pixelEvents s (x + ((n / 8 : Nat) : Int)) (y + ((n % 8 : Nat) : Int))
        (plainWord s (if glyphBit s code n = true then fg else bg)) := by
  refine List.flatMap_congr fun n _ => ?_
  cases glyphBit s code n
  · exact if_pos hne
  · rfl

/-- The general path writes the cell, pixel by pixel. -/
theorem State.Writes.generalCell {s : State} (hd : OpcodesDistinct s.cfg) (hf : s.WindowFits) {x y : Int}
    (h0 : s.OnScreen (x, y)) (h1 : s.OnScreen (x + 5, y + 7)) {fg bg : Word} (hne : bg ≠ fg) (code : Byte) :
    s.Writes (generalEvents s x y fg bg 1 code) (cellPixels s x y fg bg code) := by
  rw [generalEvents_one s x y hne, cellPixels, List.map_eq_flatMap]
  refine .flatMap fun n hn => ?_
  rw [← drawnPixels_of_onScreen (onScreen_cell h0 h1 (List.mem_range.mp hn))]
  exact .pixel hd hf (x + ((n / 8 : Nat) : Int), y + ((n % 8 : Nat) : Int)) _

/-! ### The fast path -/

/-- The access-control command and its byte set the value held, and write no pixel word (R45). -/
theorem Controller.run_madctl {m : Mapping} (h : OpcodesDistinct m.cfg) (k : Controller) (b : Byte) :
    (k.run m [.cmd m.cfg.opMadctl, .d8 b]).mad = b ∧ (k.run m [.cmd m.cfg.opMadctl, .d8 b]).writes = k.writes := by
  obtain ⟨-, -, -, hramwr⟩ := h
  obtain ⟨f, hf⟩ := Controller.command_of_ne hramwr k
  simp [consume, hf, byteArg]

/-! Opening and closing a section have no effect on the controller (R45). -/

theorem Controller.run_sel (m : Mapping) (k : Controller) : k.run m [.sel] = k := rfl

theorem Controller.run_drain_desel (m : Mapping) (k : Controller) : k.run m [.drain, .desel] = k := rfl

/-- The toggled access-control value is another one (R9). -/
theorem xor_glyphToggle_ne {c : Config} (h : c.ToggleOk) (b : Byte) : b ^^^ c.glyphToggle ≠ b := by
  obtain ⟨k, hk⟩ := h
  have hne : c.glyphToggle ≠ 0 := by rw [hk]; clear hk; revert k; decide
  exact fun h => hne (BitVec.xor_right_inj _ |>.mp (h.trans BitVec.xor_zero.symm))

/-- With the toggled value a word at a row of the range lands at the pointer with its coordinates exchanged (R46). -/
theorem Controller.landing_of_mad_toggled {m : Mapping} {k : Controller} (ht : m.cfg.ToggleOk) (hrow : k.ptrR ≤ k.re.toNat)
    (hmad : k.mad = m.base ^^^ m.cfg.glyphToggle) :
    k.landing m = some ((k.ptrR : Int) - (m.colOffset.toNat : Int), (k.ptrC : Int) - (m.rowOffset.toNat : Int)) := by
  rw [landing, if_neg (by omega), hmad, if_neg (xor_glyphToggle_ne ht _), if_pos rfl]

theorem zipIdx_map_range {α : Type} (n : Nat) (f : Nat → α) :
    ((List.range n).map f).zipIdx = (List.range n).map fun i => (f i, i) :=
  List.ext_getElem (by simp) (by simp)

/-- With the toggled value, 48 words into the transposed window of a cell land on the cell column by column: the window's rows
are the cell's columns (R46, R182). -/
theorem run_transposed_cell {s : State} (hd : OpcodesDistinct s.cfg) (ht : s.cfg.ToggleOk) (hf : s.WindowFits) {x y : Int}
    (h0 : s.OnScreen (x, y)) (h1 : s.OnScreen (x + 5, y + 7)) {k : Controller}
    (hmad : k.mad = s.ds.madctl ^^^ s.cfg.glyphToggle) (f : Nat → Word) :
    ((k.run (Mapping.of s) (setWindow s.cfg (sentRow s y) (sentRow s (y + 7)) (sentCol s x) (sentCol s (x + 5)))).run
        (Mapping.of s) (((List.range 48).map f).map .d16)).writes
      = k.writes ++ (List.range 48).map fun n : Nat =>
        ⟨some (x + ((n / 8 : Nat) : Int), y + ((n % 8 : Nat) : Int)), f n⟩ := by
  obtain ⟨hc0, hr0⟩ := hf.sent h0
  obtain ⟨hc1, hr1⟩ := hf.sent h1
  have hcols : (sentRow s (y + 7)).toNat + 1 - (sentRow s y).toNat = 8 := by omega
  obtain ⟨i, hwindow⟩ := k.run_setWindow (m := Mapping.of s) hd (sentRow s y) (sentRow s (y + 7)) (sentCol s x)
    (sentCol s (x + 5))
  rw [show s.cfg = (Mapping.of s).cfg from rfl, hwindow, Controller.run_words _ rfl (by simp only; omega), zipIdx_map_range,
    List.map_map]
  refine congrArg (k.writes ++ ·) (List.map_congr_left fun n hn => ?_)
  have hlt := List.mem_range.mp hn
  dsimp only [Function.comp_apply]
  rw [Controller.landing_of_mad_toggled ht (by simp only [Controller.atWord, Controller.cols, hcols]; omega) (by exact hmad)]
  simp only [Controller.atWord, Controller.cols, hcols, Nat.cast_add, hc0, hr0, Mapping.of,
    Int.add_right_comm _ (s.ds.colOffset.toNat : Int), Int.add_right_comm _ (s.ds.rowOffset.toNat : Int), Int.add_sub_cancel]

/-- The events of the fast path in their parts (R182): the toggled value, the transposed window, its words, the value restored. -/
theorem fastEvents_eq (s : State) (x y : Int) (fg bg : Word) (code : Byte) :
    fastEvents s x y fg bg code
      = [BusEvent.sel] ++ ([BusEvent.cmd s.cfg.opMadctl, BusEvent.d8 (s.ds.madctl ^^^ s.cfg.glyphToggle)]
        ++ (setWindow s.cfg (sentRow s y) (sentRow s (y + 7)) (sentCol s x) (sentCol s (x + 5))
        ++ (((List.range 48).map fun n : Nat => plainWord s (if glyphBit s code n = true then fg else bg)).map BusEvent.d16
        ++ ([BusEvent.cmd s.cfg.opMadctl, BusEvent.d8 s.ds.madctl] ++ [BusEvent.drain, BusEvent.desel])))) := by
  simp [fastEvents, setWindow, sentCol, sentRow]

/-- The fast path writes the cell in one transposed window, and restores the access-control value (R182). -/
theorem State.Writes.fastCell {s : State} (hd : OpcodesDistinct s.cfg) (ht : s.cfg.ToggleOk) (hf : s.WindowFits) {x y : Int}
    (h0 : s.OnScreen (x, y)) (h1 : s.OnScreen (x + 5, y + 7)) (fg bg : Word) (code : Byte) :
    s.Writes (fastEvents s x y fg bg code) (cellPixels s x y fg bg code) := by
  intro k _
  obtain ⟨htoggled, hkept⟩ := k.run_madctl (m := Mapping.of s) hd (s.ds.madctl ^^^ s.cfg.glyphToggle)
  have hcell := run_transposed_cell hd ht hf h0 h1 htoggled fun n => plainWord s (if glyphBit s code n = true then fg else bg)
  rw [hkept] at hcell
  rw [fastEvents_eq, cellPixels, Controller.run_append, Controller.run_append, Controller.run_append, Controller.run_append,
    Controller.run_append, Controller.run_drain_desel, Controller.run_sel, ← hcell]
  exact Controller.run_madctl (m := Mapping.of s) hd _ s.ds.madctl

/-- Settles O55: the one path and the other write the cell. -/
theorem glyphPathsWriteTheSamePixels : Obligations.GlyphPathsWriteTheSamePixels := by
  intro s t u k x y fg bg code hanswers hd htoggle hf hne hx hxw hy hyh ht hu
  have h0 : s.OnScreen (x.toInt, y.toInt) := by simp only [State.OnScreen]; omega
  have h1 : s.OnScreen (x.toInt + 5, y.toInt + 7) := by simp only [State.OnScreen]; omega
  have hfast : charEvents s x.toInt y.toInt fg bg 1 code false = fastEvents s x.toInt y.toInt fg bg code :=
    if_pos ⟨rfl, hne.symm, rfl, hx, hxw, hy, hyh⟩
  have hgeneral : charEvents s x.toInt y.toInt fg bg 1 code true = generalEvents s x.toInt y.toInt fg bg 1 code :=
    if_neg fun ⟨_, _, hg, _⟩ => Bool.noConfusion hg
  rw [exec_answered_events hanswers rfl rfl rfl ht, exec_answered_events hanswers rfl rfl rfl hu, sectionsOf, sectionsOf,
    drawChar_events, drawChar_events, s16, s16, hfast, hgeneral]
  exact ⟨(State.Writes.fastCell hd htoggle hf h0 h1 fg bg code).writesOf k,
    (State.Writes.generalCell hd hf h0 h1 hne.symm code).writesOf k⟩

end Sys2Proof.Machine
end

section
/-!
PROOFS. The control requests and the queries: what a rotation operand selects, what ends a request that sends nothing, and which of
these head words are illegal. Then the statements about SET_ROTATION, INVERT, NOP, CLEAR_STATUS, the queries and COLOR565.
-/

namespace Sys2Proof.Machine

/-! ## SET_ROTATION -/

/-- A rotation operand stands for its value modulo 4 (R62, R200). -/
theorem rotationOperand_toNat (r : Byte) : (rotationOperand r).toNat = r.toNat % 4 := BitVec.toNat_setWidth 2 r

/-- An operand's rotation is odd exactly where the operand is. -/
theorem rotationOperand_getLsbD_zero (r : Byte) : (rotationOperand r).getLsbD 0 = decide (r.toNat % 2 = 1) := by
  rw [rotation_getLsbD_zero, rotationOperand_toNat, Nat.mod_mod_of_dvd _ (by decide : 2 ∣ 4)]

/-- The logical width of an operand's rotation: the panel's height for odd operands (R200). -/
theorem logicalWidth_rotationOperand (cfg : Config) (r : Byte) :
    logicalWidth cfg (rotationOperand r) = BitVec.ofNat 16 (if r.toNat % 2 = 1 then cfg.panelH else cfg.panelW) := by
  simp only [logicalWidth, rotationOperand_getLsbD_zero, decide_eq_true_eq]

/-- The logical height of an operand's rotation: the panel's width for odd operands (R200). -/
theorem logicalHeight_rotationOperand (cfg : Config) (r : Byte) :
    logicalHeight cfg (rotationOperand r) = BitVec.ofNat 16 (if r.toNat % 2 = 1 then cfg.panelW else cfg.panelH) := by
  simp only [logicalHeight, rotationOperand_getLsbD_zero, decide_eq_true_eq]

/-- The access-control value of an operand's rotation (R8, R200). -/
theorem rotMadctl_rotationOperand (cfg : Config) (v : BitVec 2) (r : Byte) :
    rotMadctl cfg v (rotationOperand r)
      = (cfg.rotMadctl.get ⟨v.toNat, v.isLt⟩).get ⟨r.toNat % 4, Nat.mod_lt _ (by decide)⟩ :=
  congrArg (cfg.rotMadctl.get ⟨v.toNat, v.isLt⟩).get (Fin.ext (rotationOperand_toNat r))

/-- SET_ROTATION's commit in numbers of its operand (R200). -/
theorem commitRotation_rotationOperand (r m : Byte) (t : State) :
    commitRotation (rotationOperand r) m t = { t with
      ds := { t.ds with
        rotation := BitVec.ofNat 2 (r.toNat % 4)
        width := BitVec.ofNat 16 (if r.toNat % 2 = 1 then t.cfg.panelH else t.cfg.panelW)
        height := BitVec.ofNat 16 (if r.toNat % 2 = 1 then t.cfg.panelW else t.cfg.panelH)
        madctl := m } } := by
  rw [commitRotation, logicalWidth_rotationOperand, logicalHeight_rotationOperand, ← rotationOperand_toNat, BitVec.ofNat_toNat,
    BitVec.setWidth_eq]

/-- A request that is one command step sends that step's events (R80, R81). -/
theorem eventsOf_commandStep (cfg : Config) (op : Byte) (args : List Byte) (delay : Option Word) :
    eventsOf [commandStep cfg op args delay] = commandEvents op args delay :=
  (List.flatMap_singleton _ _).trans (commandStep_events cfg op args delay)

/-- Settles O30: the one command step of the rotation, its await answered, then the commit. -/
theorem setRotationSendsAndCommits : Obligations.SetRotationSendsAndCommits := by
  intro s r rest h
  refine ⟨decode_immediate (opc := 0x03) rest rfl rfl, ?_⟩
  rw [exec_eq _ _ rfl, settledFor, perform_answered_eq _ _ _ h (sectionsOf_payload _ _), sectionsOf, eventsOf_commandStep, commitOf,
    rotMadctl_rotationOperand, commitRotation_rotationOperand]
  rfl

/-! ## INVERT -/

/-- Settles O31: one command step without arguments, and no commit. -/
theorem invertSendsOneCommand : Obligations.InvertSendsOneCommand := by
  intro s f rest h
  have hhead : BitVec.ofNat 16 (0x0500 + f.toNat) = headWord 0x05 ((BitVec.ofBool f).setWidth 8) := by revert f; decide
  refine ⟨decode_of_eq_encode rfl (congrArg (· :: rest) hhead), ?_⟩
  rw [exec_answered h rfl rfl rfl, sectionsOf, eventsOf_commandStep]
  rfl

/-! ## NOP and CLEAR_STATUS -/

/-- A request that sends nothing commits and ends, whatever the transport does (R66, R226). -/
theorem exec_without_sections {i : Instr} {s : State} (hw : i.WellFormed := by rfl) (hn : sectionsOf i s = [] := by rfl)
    (hs : settledFor i s = s := by rfl) : exec i s = .next (endRequest (commitOf i s { s with pendMad := none })) := by
  rw [exec_eq i s hw, hs, hn]
  rfl

/-- Clearing the two sticky bits and then `BUSY` leaves no bit of the status (R23, R207). -/
theorem clearBits_busyMask_clearBits_sticky (v : Word) : clearBits busyMask (clearBits (illegalMask ||| tfaultMask) v) = 0 := by
  have hmask : ~~~(illegalMask ||| tfaultMask) &&& (statusMask &&& 0x0006) = 0 := by decide
  rw [clearBits_busyMask, clearBits, BitVec.and_assoc, BitVec.and_assoc, hmask]
  exact BitVec.and_zero

theorem exec_clearStatus (s : State) : exec .clearStatus s = .next { s.afterRegs with status := 0x0000 } :=
  (exec_without_sections (i := .clearStatus)).trans
    (congrArg (fun v : Word => Host.Outcome.next { s.afterRegs with status := v }) (clearBits_busyMask_clearBits_sticky s.status))

/-- An opcode whose only `SUB` value is 0 and that has no drawing operand is illegal with any other (R67). -/
theorem decode_nonzero_sub {opc sub : Byte} (hopc : opc.toNat ∈ [0x00, 0x04, 0x06, 0x07, 0x08, 0x09]) (hsub : sub ≠ 0)
    (rest : List Word) : ∃ why, decode (ofBytes opc sub :: rest) = .illegal why rest := by
  have hword : (ofBytes opc sub).toNat = opc.toNat * 256 + sub.toNat := headWord_toNat opc sub
  have hdiv : (ofBytes opc sub).toNat / 256 = opc.toNat := by omega
  have hmod : (ofBytes opc sub).toNat % 256 = sub.toNat := by omega
  have hreserved : ReservedHead (ofBytes opc sub) :=
    .inl ⟨hdiv ▸ hopc, fun h0 => hsub (BitVec.eq_of_toNat_eq (hmod ▸ h0))⟩
  obtain ⟨why, _, hdecode, rfl⟩ := (illegalHeadsAreTheReservedOnes _ rest).mpr hreserved
  exact ⟨why, hdecode⟩

/-- Settles O27: neither request has a section; NOP commits nothing and CLEAR_STATUS the sticky bits. -/
theorem nopAndClearStatus : Obligations.NopAndClearStatus := fun s rest =>
  ⟨decode_of_eq_encode rfl rfl, exec_registers (ds := s.ds), decode_of_eq_encode rfl rfl, exec_clearStatus s,
    fun _ hsub => ⟨decode_nonzero_sub (by decide) hsub rest, decode_nonzero_sub (by decide) hsub rest⟩⟩

/-! ## The queries and COLOR565 -/

/-- A query sends nothing and writes the response alone, whatever the transport does (R63). -/
theorem exec_query {i : Instr} {s : State} {w : Word} (hw : i.WellFormed := by rfl) (hn : sectionsOf i s = [] := by rfl)
    (hs : settledFor i s = s := by rfl) (hc : commitOf i s = respond w := by rfl) :
    exec i s = .next { s.afterRegs with resp := w } := by
  rw [exec_without_sections hw hn hs, hc, State.afterRegs, ← clearBits_busyMask]
  rfl

/-- The packed colour in numbers: the top 5, 6 and 5 bits of the channels (R205). -/
theorem pack565_eq_ofNat (r g b : Byte) :
    pack565 r g b = BitVec.ofNat 16 (r.toNat / 8 * 2048 + g.toNat / 4 * 32 + b.toNat / 8) := by
  apply BitVec.eq_of_toNat_eq
  simp only [pack565, toNat_append_eq_add, BitVec.extractLsb'_toNat, Nat.shiftRight_eq_div_pow, BitVec.toNat_ofNat]
  omega

/-- COLOR565's words decode to it whatever the high byte of the second operand word is (R62). -/
theorem decode_color565 (r g b ignored : Byte) (rest : List Word) :
    decode (0x0800 :: ofBytes r g :: ofBytes ignored b :: rest) = .ok (.color565 r g b) rest := by
  have hfields : Instr.color565 (hiByte (ofBytes r g)) (loByte (ofBytes r g)) (loByte (ofBytes ignored b)) = .color565 r g b := by
    simp only [hiByte_ofBytes, loByte_ofBytes]
  exact decode_row 8 (ops := [ofBytes r g, ofBytes ignored b]) rest rfl rfl rfl rfl (congrArg some hfields)

/-- Settles O28: each of the four has no section and answers with its register or its packed colour. -/
theorem queriesAnswer : Obligations.QueriesAnswer := fun s r g b ignored rest =>
  ⟨decode_of_eq_encode rfl rfl, BitVec.ofNat_toNat 16 s.ds.rotation ▸ exec_query, decode_of_eq_encode rfl rfl, exec_query,
    decode_of_eq_encode rfl rfl, exec_query, decode_color565 r g b ignored rest, pack565_eq_ofNat r g b ▸ exec_query⟩

end Sys2Proof.Machine
end

section
/-!
PROOFS. The two exceptions, each as the whole state it leaves; then the statements about an illegal head word and about a DRAIN that
times out.
-/

namespace Sys2Proof.Machine

/-! ## The status after an exception -/

/-- An exception's end leaves its own fault bit set, the other as it was, and `BUSY` 0 (R221, R222). -/
theorem clearBits_busyMask_setBits (m v : Word) : clearBits busyMask (setBits m v) = (v ||| m) &&& 0x0006 := by
  rw [clearBits_busyMask, setBits, BitVec.and_assoc]
  rfl

/-- Whether `BUSY` was set before does not matter to what is left once it is cleared. -/
theorem setBusy_or_and_faults (m v : Word) : (setBits busyMask v ||| m) &&& 0x0006 = (v ||| m) &&& 0x0006 := by
  have hmask : statusMask &&& (0x0006 : Word) = 0x0006 := rfl
  have hbusy : busyMask &&& (0x0006 : Word) = 0#16 := rfl
  rw [setBits, BitVec.and_or_distrib_right, BitVec.and_assoc, hmask, BitVec.and_or_distrib_right, hbusy, BitVec.or_zero,
    ← BitVec.and_or_distrib_right]

/-! ## IllegalRequest -/

/-- A step with an illegal head word takes IllegalRequest. -/
theorem step_of_illegal {s : State} {why : Reject} {rest : List Word} (hheld : s.held = none) (ha : s.accepting = true)
    (hd : decode s.waiting = .illegal why rest) : step s = .next (takeIllegalRequest (accept rest s)) := by
  simp [step, hheld, ha, hd]

/-- Settles O21: the reserved head word decodes as illegal, and IllegalRequest writes the status and the hidden state alone. -/
theorem illegalRequestConsumesTheHeadWord : Obligations.IllegalRequestConsumesTheHeadWord := by
  rintro s w0 ws ⟨hbusy, hlatched, hheld⟩ hchan hreserved
  obtain ⟨why, rest, hdecode, rfl⟩ := (illegalHeadsAreTheReservedOnes w0 ws).mpr hreserved
  have hwaiting : s.waiting = w0 :: rest := by rw [State.waiting, hlatched, hchan, List.nil_append]
  have hstatus : (takeIllegalRequest (accept rest s)).status = (s.status ||| 0x0002) &&& 0x0006 :=
    (clearBits_busyMask_setBits _ _).trans (setBusy_or_and_faults _ _)
  rw [step_of_illegal hheld (accepting_of_busy_or_latched (.inl hbusy)) (hwaiting ▸ hdecode), ← hstatus, hlatched]
  rfl

/-! ## TransportFault -/

/-- The state a request is left in by the TransportFault at the DRAIN behind its events `pre` (R222, R226). -/
def State.timedOut (s : State) (pre : List BusEvent) : State :=
  { s with
    status := clearBits busyMask (setBits tfaultMask s.status)
    owned := false
    pendMad := none
    window := none
    trace := s.trace ++ pre ++ [.drain, .desel]
    transport := s.transport.drop (awaitCount pre + 1) }

/-- A request that stops at silence at a DRAIN under a timeout times out there. -/
theorem State.StopsAtSilence.timedOutAt {s t : State} {pre post : List BusEvent} {n : Nat}
    (h : s.StopsAtSilence (pre ++ .drain :: post) t) (htimeout : s.cfg.drainTimeout = some n)
    (hsilent : s.SilentAt (awaitCount pre)) : s.TimedOutAt pre t := by
  cases h with
  | timedOut pre' post' hevs hsilent' _ h =>
    obtain ⟨rfl, -⟩ := hold_unique (ev := .drain) (ev' := .drain) nofun nofun hevs (hsilent.unique hsilent')
    exact h
  | held pre' ev post' hevs hsilent' hev h =>
    obtain ⟨rfl, rfl⟩ := hold_unique (ev := .drain) nofun (hold_ne_none hev) hevs (hsilent.unique hsilent')
    obtain ⟨-, hnone⟩ | ⟨ms, hms⟩ := hev
    · cases htimeout.symm.trans hnone
    · cases hms

/-- What a request leaves that times out behind its events `pre`: it has taken one answer more than they await. -/
theorem perform_eq_timedOut {cs : List Critical} {commit : State → State} {s : State} {pre : List BusEvent}
    (hsilent : s.SilentAt (awaitCount pre)) (hlt : awaitCount pre < awaitsOf cs) (h : s.TimedOutAt pre (perform cs commit s)) :
    perform cs commit s = s.timedOut pre := by
  rcases perform_cases cs commit s with
    ⟨hanswers, -⟩ | ⟨before, c, post, -, ⟨hsilent', -, hp⟩ | ⟨-, -, hp⟩ | ⟨ms, -, -, hp⟩⟩
  · exact absurd hanswers (hsilent.not_answersFor hlt)
  · have hcount : awaitCount pre = awaitsOf before + (c.awaits - 1) := hsilent.unique hsilent'
    have htrace := h.trace
    rw [hp] at htrace ⊢
    rw [State.timedOut, ← htrace, hcount, Nat.add_assoc, ← c.awaits_pos, afterAll_eq]
    simp [afterTimeout]
  · cases h.busy.symm.trans (hp ▸ (heldInDrain_heldAt before c s).busy)
  · cases h.busy.symm.trans (hp ▸ (heldInSleep_heldAt before c ms s).busy)

/-- A request times out at the first of its DRAINs whose answer is silent under a timeout. -/
theorem perform_of_silent_drain {cs : List Critical} (hcs : AllPayload cs) (commit : State → State) {s : State}
    {pre post : List BusEvent} {n : Nat} (hevs : eventsOf cs = pre ++ .drain :: post) (htimeout : s.cfg.drainTimeout = some n)
    (hsilent : s.SilentAt (awaitCount pre)) : perform cs commit s = s.timedOut pre := by
  have hstop := (perform_answers hcs commit s).resolve_left fun h =>
    hsilent.not_answersFor_hold (ev := .drain) nofun post (hevs ▸ h.1)
  refine perform_eq_timedOut hsilent ?_ ((hevs ▸ hstop).timedOutAt htimeout hsilent)
  rw [← awaitCount_eventsOf cs hcs, hevs, awaitCount_append, awaitCount_cons, if_neg nofun]
  omega

/-- Settles O22: the events of the answered request say where the silent one times out; what else the two leave differs only in what
a commit writes. -/
theorem timeoutEndsTheRequest : Obligations.TimeoutEndsTheRequest := by
  intro i s u pre post n htimeout hu htrace hsilent
  by_cases hw : i.WellFormed
  · have hanswered : (settledFor i s).answered.TransportAnswers := nofun
    rw [exec_eq i s.answered hw, sectionsOf_answered, commitOf_answered, settledFor_answered, perform_answered _ _ _ hanswered,
      commitOf_frame, afterAll_eq] at hu
    obtain rfl := Host.Outcome.next.inj hu
    have hevs : eventsOf (sectionsOf i s) = pre ++ .drain :: post := by
      simpa [State.answered] using htrace
    rw [exec_eq i s hw, perform_of_silent_drain (sectionsOf_payload i s) _ hevs (by simpa using htimeout)
      (by simpa [State.SilentAt] using hsilent), ← clearBits_busyMask_setBits]
    simp [State.timedOut, State.answered, endRequest, State.clearBusy, tfaultMask]
  · obtain ⟨t, rfl, ht⟩ := eq_runTable_of_not_wellFormed hw
    rw [exec_runTable_illegal t _ ht] at hu
    obtain rfl := Host.Outcome.next.inj hu
    simp [State.answered] at htrace

end Sys2Proof.Machine
end

section
/-!
PROOFS. What a reset leaves of the block, at power-up, between two requests and inside one; then the statements about reset.
-/

namespace Sys2Proof.Machine

/-- After a reset `BUSY` is 0 (R250). -/
theorem platformReset_busy (s : State) : (platformReset s).busy = false := by
  show (0x0000 : Word).getLsbD 0 = false
  decide

/-- After a reset the block is idle at a request boundary (R250). -/
theorem platformReset_idle (s : State) : (platformReset s).Idle := ⟨platformReset_busy s, rfl, rfl⟩

/-- Settles O11: the values are those the reset state is written with. -/
theorem resetLeavesTheStatedValues : Obligations.ResetLeavesTheStatedValues := fun cfg =>
  ⟨rfl, rfl, rfl, rfl, rfl, rfl, rfl, rfl, rfl, rfl, rfl, rfl, rfl, rfl, rfl, rfl, rfl, rfl, rfl,
    platformReset_idle (State.resetWith cfg), rfl, rfl, rfl⟩

/-- After a reset the block meets the control invariant: it is done and holds no words (R250). -/
theorem platformReset_controlInv (s : State) : (platformReset s).ControlInv :=
  State.Done.controlInv ⟨rfl, platformReset_busy s, rfl, rfl, rfl⟩ rfl BitVec.zero_and

/-- After a reset the logical size is that of rotation 0, and the text scale is 1 (R250). -/
theorem platformReset_displayInv (s : State) : (platformReset s).DisplayInv :=
  ⟨⟨(logicalWidth_zero _).symm, (logicalHeight_zero _).symm⟩, (by decide : (1 : Byte) ≠ 0)⟩

/-- Settles O13: the reset state is what a reset of it leaves; it has no bitmap cell, and no event has been sent. -/
theorem invariantsHoldAtReset : Obligations.InvariantsHoldAtReset := fun cfg =>
  ⟨platformReset_controlInv (State.resetWith cfg), platformReset_displayInv (State.resetWith cfg), rfl, rfl, rfl⟩

/-- The block is as after a reset under the parameters `cfg`, whatever its surroundings (R250). -/
def State.IsReset (cfg : Config) (t : State) : Prop :=
  t.ds = (State.resetWith cfg).ds ∧ t.status = 0x0000 ∧ t.resp = 0x0000 ∧ t.owned = false ∧ t.pendMad = none
    ∧ t.chan = [] ∧ t.Idle ∧ t.ControlInv ∧ t.DisplayInv

theorem platformReset_isReset (s : State) : (platformReset s).IsReset s.cfg :=
  ⟨rfl, rfl, rfl, rfl, rfl, rfl, platformReset_idle s, platformReset_controlInv s, platformReset_displayInv s⟩

/-- A reset inside a request resets the state the request would have come to, with the first `k` of its events alone (R251). -/
theorem platformResetDuring_of_next {s t : State} (h : step s = .next t) (k : Nat) :
    platformResetDuring k s = platformReset { t with trace := t.trace.take (s.trace.length + k) } := by
  rw [platformResetDuring, h]
  rfl

/-- A reset inside a request resets the block, and so does one where there is no request. -/
theorem platformResetDuring_isReset (k : Nat) (s : State) : (platformResetDuring k s).IsReset s.cfg := by
  cases h : step s with
  | next t =>
    rw [platformResetDuring_of_next h, ← (step_trace_cfg h).2]
    exact platformReset_isReset _
  | fault r =>
    rw [platformResetDuring, h]
    exact platformReset_isReset s
  | refused r =>
    rw [platformResetDuring, h]
    exact platformReset_isReset s

/-- Settles O12: a step only appends to the trace, so a first part of what it leaves is the old trace with some of its events. -/
theorem resetAbandonsTheRequest : Obligations.ResetAbandonsTheRequest := by
  refine fun s => ⟨platformReset_isReset s, rfl, fun k => ⟨platformResetDuring_isReset k s, fun t h => ?_⟩⟩
  obtain ⟨⟨evs, hevs⟩, -⟩ := step_trace_cfg h
  have htrace : (platformResetDuring k s).trace = t.trace.take (s.trace.length + k) := by
    rw [platformResetDuring_of_next h]
    rfl
  rw [htrace]
  refine ⟨?_, List.take_prefix _ _, List.length_take_le _ _⟩
  rw [hevs, List.take_length_add_append]
  exact List.prefix_append _ _

end Sys2Proof.Machine
end
